-- ==== Sys2Proof/Word.lean ====
section
/-! DEFINITION. The word types of ESPB: widths named once (spec 00_scope.md R11, R12). -/

namespace Sys2Proof

/-- An 8-bit value: a byte of `BUF`, `FB`, a bus register address or a bus data byte. -/
abbrev Byte := BitVec 8

/-- A host word (R11: host word width 32 bits). -/
abbrev Word := BitVec 32

/-- A host word index 0x000..0x7FF (10_state.md R42): eleven bits, so no index lies outside the host space. -/
abbrev HostIndex := BitVec 11

/-- A two-wire device address 0..0x7F (R11). -/
abbrev TwAddr := BitVec 7

/-- A register address of the transceiver, below 0x80 (20_memory.md R70). -/
abbrev RfReg := BitVec 7

/-- A pin identifier 0..255 (R11). -/
abbrev PinId := BitVec 8

end Sys2Proof
end

