-- ==== Sys2Proof/Config.lean ====
section
/-! DEFINITION. What an ESPB implementation fixes and this spec leaves to it (00_scope.md R9, R10): the
configuration as plain data, its defaults, and the opaque constants that stand for what is left open.

MARKS. The defaults of `Config.chip` are PRESUMED (log 6: general knowledge G1 to G7 of
93_implementation_defined.md). Every `opaque` constant is an open value: nothing in Lean can evaluate it or prove
which value it has (logs 7, 8, 9, 10). -/

namespace Sys2Proof

/-! ## Constants the source fixes (R9) -/

/-- `PT_SETTLE_T_MS`. -/
def Config.ptSettleTMs : Nat := 5

/-- `PT_SETTLE_P_MS`. -/
def Config.ptSettlePMs : Nat := 26

/-- `SW_RESET_MS`. -/
def Config.swResetMs : Nat := 18

/-- `SW_RELEASE_US`. -/
def Config.swReleaseUs : Nat := 40

/-- `SW_SAMPLE_US`. -/
def Config.swSampleUs : Nat := 28

/-- `SW_BITS`. -/
def Config.swBits : Nat := 40

/-! ## The parts of a configuration -/

/-- Which second-stage compensation formula the instance has (`STAGE2` of R10): the one of 40_compensator.md R153
and R155, or another one about which nothing is known but that it is a function of its arguments (R152). -/
inductive Stage2Choice where
  | dataSheet
  | other
deriving DecidableEq, Repr

/-- How Pa are rounded to 0.1 hPa (`P_ROUND` of R10): half up (R156), or another way. -/
inductive RoundChoice where
  | halfUp
  | other
deriving DecidableEq, Repr

/-- One font entry: five column bytes, leftmost first (10_state.md R37). -/
abbrev Glyph := Vector Byte 5

/-- Parameters of PTC. `calReg` is `PT_CAL_REG[0..10]`. -/
structure PtConfig where
  calReg  : Vector Byte 11
  regCtrl : Byte
  regData : Byte
  cmdTemp : Byte
  cmdPres : Byte
  oss     : Nat
  upShift : Nat
  div0    : Int
  stage2  : Stage2Choice
  round   : RoundChoice
deriving DecidableEq, Repr

/-- The sixteen steps of the display's initialization by meaning (42_display.md R214). -/
inductive InitStep where
  | displayOff
  | clockDivider
  | multiplexRatio
  | displayOffset
  | startLine
  | chargePump
  | addressingMode
  | segmentRemap
  | comDirection
  | comPins
  | contrast
  | precharge
  | vcomDeselect
  | entireDisplayOn
  | normalDisplay
  | displayOn
deriving DecidableEq, Repr

/-- A byte expression of the initialization list (R214): a byte, `DSPH − 1`, or a byte chosen by `DSPH = 32`. -/
inductive InitByte where
  | fixed (b : Byte)
  | heightLessOne
  | ifHeight32 (yes no : Byte)
deriving DecidableEq, Repr

/-- One byte of the initialization list: the step it belongs to, the expression, its `k` for `BusError(k)`. -/
structure InitEntry where
  step : InitStep
  byte : InitByte
  info : Byte
deriving DecidableEq, Repr

/-- Parameters of FTR: the control prefixes, the initialization list (R214, D24: a configuration table of byte
expressions and their `k`, any list at all), the two command bytes of the flush (R222), and the font ROM.
`GLYPH_COUNT` is the length of `font`. -/
structure DspConfig where
  ctrlCmd   : Byte
  ctrlData  : Byte
  initList  : List InitEntry
  cColAddr  : Byte
  cPageAddr : Byte
  font      : List Glyph
deriving DecidableEq, Repr

/-- The parameters `DSP_C_*` and `DSP_V_*` of an initialization list of the shape R214 shows. -/
structure DspInitBytes where
  cOff          : Byte
  cClkDiv       : Byte
  vClkDiv       : Byte
  cMux          : Byte
  cOffset       : Byte
  cStartLine    : Byte
  cChargePump   : Byte
  vCpOn         : Byte
  cAddrMode     : Byte
  vHoriz        : Byte
  cSegRemap     : Byte
  cComDir       : Byte
  cComPins      : Byte
  vComPins32    : Byte
  vComPinsOther : Byte
  cContrast     : Byte
  vContrast     : Byte
  cPrecharge    : Byte
  vPrecharge    : Byte
  cVcomDesel    : Byte
  vVcomDesel    : Byte
  cAllOnResume  : Byte
  cNormal       : Byte
  cOn           : Byte
deriving DecidableEq, Repr

/-- Parameters of RFC (43_radio.md R252). -/
structure RfConfig where
  regFifo        : RfReg
  regOpMode      : RfReg
  regFrfMsb      : RfReg
  regFrfMid      : RfReg
  regFrfLsb      : RfReg
  regPaConfig    : RfReg
  regFifoAddrPtr : RfReg
  regFifoTxBase  : RfReg
  regIrqFlags    : RfReg
  regPayloadLen  : RfReg
  regSyncWord    : RfReg
  modeSleep      : Byte
  modeStdby      : Byte
  modeTx         : Byte
  irqTxDone      : Byte
  modemWrites    : List (RfReg × Byte)
  preambleWrites : List (RfReg × Byte)
  paValue        : Byte
  syncWord       : Byte
  dummy          : Byte
  delay1Ms       : Nat
  delay2Ms       : Nat
  /-- `RF_POLL_MAX`; `none` is the infinite bound. -/
  pollMax        : Option Nat
deriving DecidableEq, Repr

/-- The configuration of one ESPB instance. -/
structure Config where
  pt        : PtConfig
  dsp       : DspConfig
  rf        : RfConfig
  /-- `SW_POLL_MAX`; `none` is the infinite bound. -/
  swPollMax : Option Nat
deriving DecidableEq, Repr

/-! ## Calibration coefficients as numbers (argument of the second stage) -/

/-- The eleven calibration coefficients as signed numbers (10_state.md R27). -/
structure Coefs where
  ac1 : Int
  ac2 : Int
  ac3 : Int
  ac4 : Int
  ac5 : Int
  ac6 : Int
  b1  : Int
  b2  : Int
  mb  : Int
  mc  : Int
  md  : Int
deriving DecidableEq, Repr

/-! ## What is left open: no value of any of these can be proved -/

/-- `Stage2a` of an instance whose second stage is not the one of R153. -/
opaque Config.otherStage2a : Int → Coefs → Int × Word

/-- `Stage2b` of an instance whose second stage is not the one of R155. -/
opaque Config.otherStage2b : Int → Int

/-- The rounding of an instance that does not round half up. -/
opaque Config.otherRound : Int → Int

/-- What the `n`-th unspecified host read returns (20_memory.md R64). -/
opaque Config.busyRead : Nat → Word

/-- What `BUF[i]` holds after the `n`-th reset until it is written (70_reset_and_hazards.md R320). -/
opaque Config.bufAtReset : Nat → Nat → Byte

/-- What `FB[i]` holds after the `n`-th reset until it is written (R320). -/
opaque Config.fbAtReset : Nat → Nat → Byte

/-- How many glyphs the font ROM has beyond the two it must have. -/
opaque Config.openGlyphCount : Nat

/-- The font entries the source does not give. -/
opaque Config.openGlyph : Nat → Glyph

/-- `RF_MODEM_WRITES`. -/
opaque Config.openModemWrites : List (RfReg × Byte)

/-- `RF_PREAMBLE_WRITES`. -/
opaque Config.openPreambleWrites : List (RfReg × Byte)

/-- `RF_PA_VALUE`. -/
opaque Config.openPaValue : Byte

/-- `RF_SYNC_WORD`. -/
opaque Config.openSyncWord : Byte

/-- `RF_DELAY1_MS` less one: a delay is a positive number (30_encoding.md R118). -/
opaque Config.openDelay1 : Nat

/-- `RF_DELAY2_MS` less one. -/
opaque Config.openDelay2 : Nat

/-- `SW_POLL_MAX` less one, or no bound. -/
opaque Config.openSwPollMax : Option Nat

/-- `RF_POLL_MAX` less one, or no bound. -/
opaque Config.openRfPollMax : Option Nat

/-! ## The default configuration -/

/-- The one glyph the source gives: `FONT[1]`, the code 33 `!` (10_state.md R37). -/
def Config.bangGlyph : Glyph := #v[0x00, 0x00, 0x5F, 0x00, 0x00]

/-- A font ROM of 2 to 224 entries of which only entry 1 is known (R10, 90_conflicts.md C8). -/
def Config.chipFont : List Glyph :=
  (List.range (2 + Config.openGlyphCount % 223)).map fun g =>
    if g = 1 then Config.bangGlyph else Config.openGlyph g

/-- The PTC defaults of R10 (PRESUMED, G1 and G2; log 6). -/
def Config.chipPt : PtConfig :=
  { calReg := #v[0xAA, 0xAC, 0xAE, 0xB0, 0xB2, 0xB4, 0xB6, 0xB8, 0xBA, 0xBC, 0xBE]
    regCtrl := 0xF4, regData := 0xF6, cmdTemp := 0x2E, cmdPres := 0xF4
    oss := 3, upShift := 8, div0 := 0, stage2 := .dataSheet, round := .halfUp }

/-- The bytes R214 and R222 give (PRESUMED, G5; log 6). -/
def Config.chipInitBytes : DspInitBytes :=
  { cOff := 0xAE, cClkDiv := 0xD5, vClkDiv := 0x80, cMux := 0xA8, cOffset := 0xD3, cStartLine := 0x40
    cChargePump := 0x8D, vCpOn := 0x14, cAddrMode := 0x20, vHoriz := 0x00, cSegRemap := 0xA1, cComDir := 0xC8
    cComPins := 0xDA, vComPins32 := 0x02, vComPinsOther := 0x12, cContrast := 0x81, vContrast := 0xCF
    cPrecharge := 0xD9, vPrecharge := 0xF1, cVcomDesel := 0xDB, vVcomDesel := 0x40
    cAllOnResume := 0xA4, cNormal := 0xA6, cOn := 0xAF }

/-- The list of R214, row by row: which steps carry an operand is general knowledge (PRESUMED, G5; log 6), the four
operands `DSPH − 1`, 0, line 0 and the choice by `DSPH = 32` are the source's. -/
def DspInitBytes.table (p : DspInitBytes) : List InitEntry :=
  [⟨.displayOff, .fixed p.cOff, 0⟩,
   ⟨.clockDivider, .fixed p.cClkDiv, 1⟩, ⟨.clockDivider, .fixed p.vClkDiv, 2⟩,
   ⟨.multiplexRatio, .fixed p.cMux, 3⟩, ⟨.multiplexRatio, .heightLessOne, 4⟩,
   ⟨.displayOffset, .fixed p.cOffset, 5⟩, ⟨.displayOffset, .fixed 0x00, 6⟩,
   ⟨.startLine, .fixed p.cStartLine, 7⟩,
   ⟨.chargePump, .fixed p.cChargePump, 8⟩, ⟨.chargePump, .fixed p.vCpOn, 9⟩,
   ⟨.addressingMode, .fixed p.cAddrMode, 10⟩, ⟨.addressingMode, .fixed p.vHoriz, 11⟩,
   ⟨.segmentRemap, .fixed p.cSegRemap, 12⟩,
   ⟨.comDirection, .fixed p.cComDir, 13⟩,
   ⟨.comPins, .fixed p.cComPins, 14⟩, ⟨.comPins, .ifHeight32 p.vComPins32 p.vComPinsOther, 15⟩,
   ⟨.contrast, .fixed p.cContrast, 16⟩, ⟨.contrast, .fixed p.vContrast, 17⟩,
   ⟨.precharge, .fixed p.cPrecharge, 18⟩, ⟨.precharge, .fixed p.vPrecharge, 19⟩,
   ⟨.vcomDeselect, .fixed p.cVcomDesel, 20⟩, ⟨.vcomDeselect, .fixed p.vVcomDesel, 21⟩,
   ⟨.entireDisplayOn, .fixed p.cAllOnResume, 22⟩,
   ⟨.normalDisplay, .fixed p.cNormal, 23⟩,
   ⟨.displayOn, .fixed p.cOn, 24⟩]

/-- The FTR defaults of R10, R214 and R222 (PRESUMED, G4 and G5; log 6) with a given font ROM. -/
def Config.chipDsp (font : List Glyph) : DspConfig :=
  { ctrlCmd := 0x00, ctrlData := 0x40, initList := Config.chipInitBytes.table
    cColAddr := 0x21, cPageAddr := 0x22, font := font }

/-- The RFC defaults of R252 (PRESUMED, G6 and G7; log 6); what R252 leaves OPEN is opaque (log 7). -/
def Config.chipRf : RfConfig :=
  { regFifo := 0x00, regOpMode := 0x01, regFrfMsb := 0x06, regFrfMid := 0x07, regFrfLsb := 0x08
    regPaConfig := 0x09, regFifoAddrPtr := 0x0D, regFifoTxBase := 0x0E, regIrqFlags := 0x12
    regPayloadLen := 0x22, regSyncWord := 0x39
    modeSleep := 0x80, modeStdby := 0x81, modeTx := 0x83, irqTxDone := 0x08
    modemWrites := Config.openModemWrites, preambleWrites := Config.openPreambleWrites
    paValue := Config.openPaValue, syncWord := Config.openSyncWord, dummy := 0x00
    delay1Ms := Config.openDelay1 + 1, delay2Ms := Config.openDelay2 + 1
    pollMax := Config.openRfPollMax.map (· + 1) }

/-- The configuration of the instance that `State.reset` is: the spec's defaults, everything OPEN left open. -/
def Config.chip : Config :=
  { pt := Config.chipPt, dsp := Config.chipDsp Config.chipFont, rf := Config.chipRf
    swPollMax := Config.openSwPollMax.map (· + 1) }

/-! ## The bounds the spec sets on a configuration -/

/-- The bounds R10 and R118 set: a font of 2 to 224 glyphs whose entry 1 is the known one, poll bounds and delays
positive. (Register addresses below 0x80 and bytes are so by their types.) -/
abbrev Config.WellFormed (c : Config) : Prop :=
  (2 ≤ c.dsp.font.length ∧ c.dsp.font.length ≤ 224 ∧ c.dsp.font[1]? = some Config.bangGlyph) ∧
  (c.swPollMax ≠ some 0 ∧ c.rf.pollMax ≠ some 0) ∧
  (0 < c.rf.delay1Ms ∧ 0 < c.rf.delay2Ms)

end Sys2Proof
end

