-- ==== Sys2Proof/Syntax.lean ====
section
/-! DEFINITION. The thirteen operations of ESPB (30_encoding.md R100), one constructor per row of
spec/opcode_table.json, and the operand registers they take their operands from (R102). The command word has no
operand field (R105), so a constructor carries none. -/

namespace Sys2Proof

/-- The operations. The comment gives opcode and mnemonic. -/
inductive Instr where
  /-- 0x10 `PT.INIT`. -/
  | ptInit
  /-- 0x11 `PT.READT`. -/
  | ptReadT
  /-- 0x12 `PT.READP`. -/
  | ptReadP
  /-- 0x20 `SW.READT`. -/
  | swReadT
  /-- 0x21 `SW.READH`. -/
  | swReadH
  /-- 0x22 `SW.SETCAL`. -/
  | swSetCal
  /-- 0x30 `DSP.INIT`. -/
  | dspInit
  /-- 0x31 `DSP.CLEAR`. -/
  | dspClear
  /-- 0x32 `DSP.SHOWSTR`. -/
  | dspShowStr
  /-- 0x33 `DSP.SHOWNUM`. -/
  | dspShowNum
  /-- 0x40 `RF.INIT`. -/
  | rfInit
  /-- 0x41 `RF.SEND`. -/
  | rfSend
  /-- 0x42 `RF.ONRECV`. -/
  | rfOnRecv
deriving DecidableEq, Repr

/-- The operand registers as the host left them at the `CMD` write (20_memory.md R67), but for the text or payload
itself, which is any bytes (R102). -/
structure Operands where
  arg0 : Word
  arg1 : Word
  arg2 : Word
  len  : Byte
deriving DecidableEq, Repr

end Sys2Proof
end

