-- ==== Sys2Proof/WellFormed.lean ====
section
/-! DEFINITION. When the operands of an operation are within the legal ranges of 30_encoding.md R102. The
operation alone has no ill-formed term (it has no field); what can be ill-formed is an operation WITH its operand
registers. The range checks the machine makes (R103) are Machine/Operands.lean's, written apart from these. And what
42_display.md R214 lets one assume of a display's initialization list: the order of meanings and four operands. -/

namespace Sys2Proof

/-- `ARG0` of a two-wire `INIT` operand or a pin is at most `hi`. -/
def Operands.arg0AtMost (o : Operands) (hi : Nat) : Bool := o.arg0.toNat ≤ hi

/-- A display geometry and address in range: width 1..128, height a multiple of 8 in 8..64, address 0..0x7F. -/
def Operands.displayOk (o : Operands) : Bool :=
  (1 ≤ o.arg0.toNat && o.arg0.toNat ≤ 128) &&
  ([8, 16, 24, 32, 40, 48, 56, 64].contains o.arg1.toNat) &&
  (o.arg2.toNat ≤ 0x7F)

/-- R102: the legal ranges, operation by operation. -/
def Instr.wellFormed (i : Instr) (o : Operands) : Bool :=
  match i with
  | .ptInit => o.arg0AtMost 0x7F
  | .ptReadT => true
  | .ptReadP => true
  | .swReadT => o.arg0AtMost 255
  | .swReadH => o.arg0AtMost 255
  | .swSetCal => true
  | .dspInit => o.displayOk
  | .dspClear => true
  | .dspShowStr => true
  | .dspShowNum => true
  | .rfInit => true
  | .rfSend => o.arg0AtMost 255 && (o.len.toNat ≤ 254)
  | .rfOnRecv => true

/-! ## The initialization list of the display (42_display.md R214) -/

/-- The number of a step in the order of R214. -/
def InitStep.number : InitStep → Nat
  | .displayOff => 1
  | .clockDivider => 2
  | .multiplexRatio => 3
  | .displayOffset => 4
  | .startLine => 5
  | .chargePump => 6
  | .addressingMode => 7
  | .segmentRemap => 8
  | .comDirection => 9
  | .comPins => 10
  | .contrast => 11
  | .precharge => 12
  | .vcomDeselect => 13
  | .entireDisplayOn => 14
  | .normalDisplay => 15
  | .displayOn => 16

/-- The bytes of one step. -/
def bytesOf (l : List InitEntry) (step : InitStep) : List InitByte := (l.filter fun e => e.step = step).map (·.byte)

/-- "The steps must execute in this order": no step before an earlier one, and none missing. -/
def initInOrder (l : List InitEntry) : Bool :=
  decide (l.Pairwise fun e f => e.step.number ≤ f.step.number) &&
  (List.range 16).all fun n => l.any fun e => e.step.number = n + 1

/-- The four operands the source fixes: `DSPH − 1`, display offset 0, start line 0 (in the low six bits of a byte,
DEDUCED, log 28), the choice by `DSPH = 32`. -/
def initOperandsFixed (l : List InitEntry) : Bool :=
  (bytesOf l .multiplexRatio).contains .heightLessOne &&
  (bytesOf l .displayOffset).contains (.fixed 0x00) &&
  ((bytesOf l .startLine).any fun b => match b with
    | .fixed v => v.toNat % 64 = 0
    | .heightLessOne => false
    | .ifHeight32 .. => false) &&
  ((bytesOf l .comPins).any fun b => match b with
    | .fixed _ => false
    | .heightLessOne => false
    | .ifHeight32 .. => true)

/-- An initialization list as R214 wants it. -/
def initListOk (l : List InitEntry) : Bool := initInOrder l && initOperandsFixed l

end Sys2Proof
end

