-- ==== Sys2Proof/Decode.lean ====
section
/-! DEFINITION. The command word (30_encoding.md R100, R101, R104, R105): a total decoder from 32-bit words, the
encoder, and the table form the host asks with. -/

namespace Sys2Proof

/-- Why a command word is no operation (R104). Both carry the low byte of the word, which `IllegalCommand` reports. -/
inductive DecodeError where
  /-- The field `ZERO`, bits 31:8, is not 0. -/
  | zeroFieldSet (low : Byte)
  /-- The field `OPC`, bits 7:0, is not one of the thirteen opcodes. -/
  | noSuchOpcode (low : Byte)
deriving DecidableEq, Repr

/-- R100: opcode and operation, row by row. -/
def opcodeRows : List (Byte × Instr) :=
  [(0x10, .ptInit), (0x11, .ptReadT), (0x12, .ptReadP),
   (0x20, .swReadT), (0x21, .swReadH), (0x22, .swSetCal),
   (0x30, .dspInit), (0x31, .dspClear), (0x32, .dspShowStr), (0x33, .dspShowNum),
   (0x40, .rfInit), (0x41, .rfSend), (0x42, .rfOnRecv)]

/-- The operation of an opcode, if it has one. -/
def instrOfOpcode (opc : Byte) : Option Instr := opcodeRows.lookup opc

/-- The opcode of an operation (R100). -/
def opcodeOf : Instr → Byte
  | .ptInit => 0x10
  | .ptReadT => 0x11
  | .ptReadP => 0x12
  | .swReadT => 0x20
  | .swReadH => 0x21
  | .swSetCal => 0x22
  | .dspInit => 0x30
  | .dspClear => 0x31
  | .dspShowStr => 0x32
  | .dspShowNum => 0x33
  | .rfInit => 0x40
  | .rfSend => 0x41
  | .rfOnRecv => 0x42

/-- Field `OPC` of the command word, bits 7:0 (R101). -/
def opcField (w : Word) : Byte := w.extractLsb' 0 8

/-- Field `ZERO` of the command word, bits 31:8 (R101). -/
def zeroField (w : Word) : BitVec 24 := w.extractLsb' 8 24

/-- R101, R104: every word is one of the thirteen operations or an illegal command. -/
def decode (w : Word) : Except DecodeError Instr :=
  if zeroField w ≠ 0 then .error (.zeroFieldSet (opcField w))
  else
    match instrOfOpcode (opcField w) with
    | some i => .ok i
    | none => .error (.noSuchOpcode (opcField w))

/-- The command word of an operation: `ZERO` = 0, `OPC` = its opcode (R101). -/
def encode (i : Instr) : Word := 0#24 ++ opcodeOf i

/-- The operation the decoder reads from a table row's bits: one 32-bit word (R105), bits above `nbits` zero.
More than 32 bits are no command word. -/
def decodeTableWord (nbits w : Nat) : Option Instr :=
  if 2 ^ 32 ≤ w % 2 ^ nbits then none
  else (decode (BitVec.ofNat 32 (w % 2 ^ nbits))).toOption

end Sys2Proof
end

