-- ==== Sys2Proof/Machine/State.lean ====
section
/-! DEFINITION. What ESPB holds (10_state.md R20 to R50), plain data, grouped by the unit that owns it; the port
primitives and events (00_scope.md R6, R14); the inputs from outside; the causes; the state after reset
(70_reset_and_hazards.md R320). Fields that are the model's own and not the spec's say so. -/

namespace Sys2Proof.Machine

/-! ## Ports, events, inputs -/

/-- The pull modes of a pin: the opaque token `Up` is the only one ESPB uses (30_encoding.md R118). -/
inductive Pull where
  | up
deriving DecidableEq, Repr

/-- A call of a port primitive of 00_scope.md R6, with its arguments. `twRead8` is listed there and used by no
operation. -/
inductive Prim where
  | twWrite8 (a : TwAddr) (reg v : Byte)
  | twRead8 (a : TwAddr) (reg : Byte)
  | twRead16 (a : TwAddr) (reg : Byte)
  | twReadS16 (a : TwAddr) (reg : Byte)
  | twRead24 (a : TwAddr) (reg : Byte)
  | twWriteBlock (a : TwAddr) (bytes : List Byte)
  | spiXfer (b : Byte)
  | pinWrite (p : PinId) (level : Bool)
  | pinRead (p : PinId)
  | pinPull (p : PinId) (mode : Pull)
  | delayMs (n : Nat)
  | delayUs (n : Nat)
deriving DecidableEq, Repr

/-- An answer of the environment: an acknowledge bit and up to 24 data bits (30_encoding.md R117). A primitive that
returns less takes the low bits it returns (DESIGN CHOICE, log 14). -/
structure Answer where
  ack  : Bool
  data : BitVec 24
deriving DecidableEq, Repr

/-- One event (R14): a call and what it returned, reduced to what the primitive returns. -/
structure Event where
  prim : Prim
  ans  : Answer
deriving DecidableEq, Repr

/-- What the agents outside ESPB do, other than answering a primitive: the host port (R6), the radio subsystem's
`RxEvent` (60_exceptions.md R300), both in one step (R301), and the reset input (70_reset_and_hazards.md R321), whose
level is what the action gives it. The packet number `num` of `RxEvent` has no width in the spec; 32 bits are the
model's choice (DESIGN CHOICE, log 27), of which nothing depends, since it is discarded (43_radio.md R268). -/
inductive External where
  | hostRead (i : HostIndex)
  | hostWrite (i : HostIndex) (v : Word)
  | rxEvent (num : Word)
  | hostWriteRx (i : HostIndex) (v : Word) (num : Word)
  | rst (asserted : Bool)
deriving DecidableEq, Repr

/-- What happens next outside SEQ (the model's own, DESIGN CHOICE, logs 1 and 3). -/
inductive Input where
  /-- The environment answers the primitive SEQ is waiting on. -/
  | answer (a : Answer)
  /-- An outside action that lands when ESPB is idle or waits for an answer. -/
  | ext (e : External)
  /-- An outside action that lands before SEQ takes its next step, even an internal one. -/
  | early (e : External)
  /-- SEQ takes one step before anything that follows, so that an `early` action after `n` of these lands after the
  next `n` steps. Nothing happens where SEQ has no step to take: it is idle, held in reset or waits for an answer. -/
  | pass
deriving DecidableEq, Repr

/-- What one host read returned. -/
structure HostReadResult where
  index : HostIndex
  value : Word
deriving DecidableEq, Repr

/-! ## Completion causes -/

/-- The causes an operation can end with other than `OK` (60_exceptions.md R290), each with what its `INFO` holds.
`ChecksumMismatch` is never a cause (R293) and has no constructor. -/
inductive Cause where
  /-- `BusError`: which transaction failed (R291). -/
  | busError (info : Byte)
  /-- `NotInitialized`: the unit number. -/
  | notInitialized (unitNumber : Byte)
  /-- `Timeout`: which loop (R292). -/
  | timeout (loop : Byte)
  /-- `UnsupportedGlyph`: the offending character code. -/
  | unsupportedGlyph (code : Byte)
  /-- `IllegalCommand`: the low byte of the word written. -/
  | illegalCommand (low : Byte)
  /-- `IllegalOperand`: which operand. -/
  | illegalOperand (n : Byte)
deriving DecidableEq, Repr

/-! ## The units' state -/

/-- A byte memory: (index, byte) pairs, indices strictly rising; an unlisted index holds no value (log 8). -/
abbrev Memory := List Host.Cell

/-- State of the sequencer (R21, R22, R24, R25), with the temporaries of the operation in flight (log 11). -/
structure Seq where
  busy  : Bool
  op    : Byte
  phase : Nat
  cause : BitVec 16
  ovr   : Bool
  /-- `acc` of 41_single_wire.md R183, a temporary. -/
  acc   : BitVec 40
  /-- `n` of R181 or `count` of 43_radio.md R262, a temporary. -/
  polls : Nat
  /-- The first byte of the register read of 43_radio.md R262 W4 has been sent, a temporary. -/
  midRead : Bool
  /-- The pin ESPB is driving low (20_memory.md R71; 70_reset_and_hazards.md R322, R333; log 17). -/
  pinLow : Option PinId
deriving DecidableEq, Repr

/-- Operand and result registers (R23). -/
structure HostRegs where
  arg0 : Word
  arg1 : Word
  arg2 : Word
  len  : Byte
  ret0 : Word
  ret1 : Word
  buf  : Memory
deriving DecidableEq, Repr

/-- `CAL[0..10]` as the eleven 16-bit patterns (R27). -/
structure CalSet where
  ac1 : BitVec 16
  ac2 : BitVec 16
  ac3 : BitVec 16
  ac4 : BitVec 16
  ac5 : BitVec 16
  ac6 : BitVec 16
  b1  : BitVec 16
  b2  : BitVec 16
  mb  : BitVec 16
  mc  : BitVec 16
  md  : BitVec 16
deriving DecidableEq, Repr

/-- State of PTC (R26 to R29). -/
structure Ptc where
  init : Bool
  addr : TwAddr
  cal  : CalSet
  ut   : BitVec 16
  up   : BitVec 19
  b5   : Word
deriving DecidableEq, Repr

/-- `SWSTAT` (R32). -/
inductive SwStat where
  | none
  | accepted
  | noResponse
  | checksumMismatch
  | timeout
deriving DecidableEq, Repr

/-- State of SWD (R31 to R34). -/
structure Swd where
  frame  : BitVec 40
  haveFrame  : Bool
  stat   : SwStat
  lastT  : Byte
  lastH  : Byte
  calOff : Word
deriving DecidableEq, Repr

/-- State of FTR (R35, R36). -/
structure Ftr where
  init   : Bool
  width  : Byte
  height : Byte
  addr   : TwAddr
  fbLen  : BitVec 11
  fb     : Memory
deriving DecidableEq, Repr

/-- `RFMODE` (R39). -/
inductive RfMode where
  | unknown
  | sleep
  | standby
  | transmit
deriving DecidableEq, Repr

/-- State of RFC (R38 to R41). -/
structure Rfc where
  init   : Bool
  mode   : RfMode
  frf    : BitVec 24
  rxie   : Bool
  rxpend : Bool
deriving DecidableEq, Repr

/-- The outside as the model holds it: the level of the reset input (70_reset_and_hazards.md R321, log 16), and the
model's own record (logs 1, 4, 8, 9): what comes next, what has happened, two counters. -/
structure Env where
  rst       : Bool
  inputs    : List Input
  trace     : List Event
  hostReads : List HostReadResult
  freeReads : Nat
  epoch     : Nat
deriving DecidableEq, Repr

/-- The state of ESPB. `cfg` is the instance's configuration, which no step writes (log 5). -/
structure State where
  cfg  : Config
  seq  : Seq
  host : HostRegs
  pt   : Ptc
  sw   : Swd
  dsp  : Ftr
  rf   : Rfc
  env  : Env
deriving DecidableEq, Repr

/-! ## How a step can stop -/

/-- ESPB has no fault: "No operation in this system is fatal to the process" (60_exceptions.md R298), every host
index exists (10_state.md R42), and every other failure is a completion cause, a next state. No constructor (log 23). -/
inductive Fault where
deriving DecidableEq, Repr

/-- Refusals. -/
inductive Refusal where
  /-- Raised by `exec` for an operation that has no meaning yet; safe. No operation is in that case. -/
  | notModelled (mnemonic : String)
deriving DecidableEq, Repr

/-! ## Reset -/

/-- `CAL` after reset: all eleven 0 (R27). -/
def CalSet.zero : CalSet :=
  { ac1 := 0, ac2 := 0, ac3 := 0, ac4 := 0, ac5 := 0, ac6 := 0, b1 := 0, b2 := 0, mb := 0, mc := 0, md := 0 }

/-- Sequencer state after reset (R320). -/
def Seq.reset : Seq :=
  { busy := false, op := 0, phase := 0, cause := 0, ovr := false, acc := 0, polls := 0, midRead := false
    pinLow := .none }

/-- Operand and result registers after reset (R320): `BUF` unspecified, so nothing is listed. -/
def HostRegs.reset : HostRegs :=
  { arg0 := 0, arg1 := 0, arg2 := 0, len := 0, ret0 := 0, ret1 := 0, buf := [] }

/-- PTC after reset (R320). -/
def Ptc.reset : Ptc :=
  { init := false, addr := 0x77, cal := CalSet.zero, ut := 0, up := 0, b5 := 0 }

/-- SWD after reset (R320). -/
def Swd.reset : Swd :=
  { frame := 0, haveFrame := false, stat := .none, lastT := 0, lastH := 0, calOff := 0 }

/-- FTR after reset (R320): `FB` unspecified, so nothing is listed. -/
def Ftr.reset : Ftr :=
  { init := false, width := 128, height := 64, addr := 0x3C, fbLen := 0, fb := [] }

/-- RFC after reset (R320). -/
def Rfc.reset : Rfc :=
  { init := false, mode := .unknown, frf := 0, rxie := false, rxpend := false }

/-- The reset input is released, nothing has happened yet and nothing comes next (the model's own, log 16). -/
def Env.start : Env :=
  { rst := false, inputs := [], trace := [], hostReads := [], freeReads := 0, epoch := 0 }

/-- The machine right after reset (R320), as an instance of the default configuration. -/
def State.reset : State :=
  { cfg := Config.chip, seq := Seq.reset, host := HostRegs.reset, pt := Ptc.reset, sw := Swd.reset
    dsp := Ftr.reset, rf := Rfc.reset, env := Env.start }

end Sys2Proof.Machine
end

