-- ==== Sys2Proof/Machine/Memory.lean ====
section
/-! DEFINITION. The byte memories `BUF` and `FB` (20_memory.md R60): reading and writing one byte, clearing, and
the canonical form. A memory lists only bytes written since reset, in strictly rising order; an unlisted byte has
no value here, and `State.bufByte`, `State.fbByte` (Machine/Operands.lean) give it a free one (log 8). -/

namespace Sys2Proof.Machine

/-- The byte at `a`, if one has been written since reset. -/
def Memory.read? (m : Memory) (a : Nat) : Option Byte := m.lookup a

/-- Write the byte at `a`, keeping the order. -/
def Memory.write (m : Memory) (a : Nat) (v : Byte) : Memory :=
  match m with
  | [] => [(a, v)]
  | c :: rest =>
    if a < c.1 then (a, v) :: c :: rest
    else if a = c.1 then (a, v) :: rest
    else c :: Memory.write rest a v

/-- Write bytes at consecutive indices from `a` up. -/
def Memory.writeBytes (m : Memory) (a : Nat) : List Byte → Memory
  | [] => m
  | v :: vs => Memory.writeBytes (m.write a v) (a + 1) vs

/-- Set the bytes 0 .. `n`−1 to zero (42_display.md R221 K2); bytes from `n` up keep what they hold. -/
def Memory.zeroFill (m : Memory) (n : Nat) : Memory :=
  (List.range n).map (fun j => (j, (0 : Byte))) ++ m.filter (fun c => n ≤ c.1)

/-- The canonical form: indices strictly rising, all below `size`. -/
abbrev Memory.WellFormed (m : Memory) (size : Nat) : Prop :=
  m.Pairwise (fun c d => c.1 < d.1) ∧ ∀ c ∈ m, c.1 < size

end Sys2Proof.Machine
end

