-- ==== Sys2Proof/Machine/Flags.lean ====
section
/-! DEFINITION. The flags and codes ESPB shows (10_state.md R22, R32, R39, R43, R44, R48; 60_exceptions.md R290,
R300): the `CAUSE` word, the `STATUS` word, the interrupt level. ESPB has no arithmetic condition codes (R48). -/

namespace Sys2Proof.Machine

/-- `CODE` of a cause (R290). -/
def Cause.code : Cause → BitVec 4
  | .busError _ => 1
  | .notInitialized _ => 2
  | .timeout _ => 3
  | .unsupportedGlyph _ => 5
  | .illegalCommand _ => 6
  | .illegalOperand _ => 7

/-- `INFO` of a cause (R290). -/
def Cause.info : Cause → Byte
  | .busError k => k
  | .notInitialized u => u
  | .timeout l => l
  | .unsupportedGlyph c => c
  | .illegalCommand w => w
  | .illegalOperand n => n

/-- `CAUSE` as a `raise` leaves it: `INFO` in 15:8, 0 in 7:4, `CODE` in 3:0 (R44, R296). -/
def Cause.word (c : Cause) : BitVec 16 := c.info ++ 0#4 ++ c.code

/-- The code of `SWSTAT` (R32). -/
def SwStat.code : SwStat → BitVec 3
  | .none => 0
  | .accepted => 1
  | .noResponse => 2
  | .checksumMismatch => 3
  | .timeout => 4

/-- The code of `RFMODE` (R39). -/
def RfMode.code : RfMode → BitVec 2
  | .unknown => 0
  | .sleep => 1
  | .standby => 2
  | .transmit => 3

/-- The `STATUS` word (R43), bit 31 first. -/
def State.status (s : State) : Word :=
  0#21 ++ s.sw.stat.code ++ BitVec.ofBool s.seq.ovr ++ BitVec.ofBool s.rf.rxpend ++ BitVec.ofBool s.rf.rxie
    ++ BitVec.ofBool s.rf.init ++ BitVec.ofBool s.dsp.init ++ BitVec.ofBool s.sw.haveFrame
    ++ BitVec.ofBool s.pt.init ++ BitVec.ofBool s.seq.busy

/-- The interrupt output `irq_rx`: the level `RXIE and RXPEND` (60_exceptions.md R300). -/
def State.irqRx (s : State) : Bool := s.rf.rxie && s.rf.rxpend

end Sys2Proof.Machine
end

