-- ==== Sys2Proof/Machine/Operands.lean ====
section
/-! DEFINITION. Operand forms and the arithmetic on them: `fdiv`, `sext_32` (00_scope.md R13), the signed reading
of the calibration (10_state.md R27), the range checks of 30_encoding.md R102, R103, text position, fit and glyph
lookup (20_memory.md R72, R73; 42_display.md R226, R227), decimal text (R116, R231), the frequency word (R111),
bytes of `BUF` and `FB`. -/

namespace Sys2Proof.Machine

/-! ## Numbers -/

/-- `fdiv(a, b)` of R13: floor division, and `DIV0` when the divisor is 0 (log 21). -/
def fdiv (div0 a b : Int) : Int := if b = 0 then div0 else Int.fdiv a b

/-- `sext_32(v)` of R13. -/
def sext32 (v : Int) : Int := (BitVec.ofInt 32 v).toInt

/-- The eleven coefficients as numbers: AC4, AC5, AC6 unsigned, the others signed (10_state.md R27). -/
def CalSet.coefs (c : CalSet) : Coefs :=
  { ac1 := c.ac1.toInt, ac2 := c.ac2.toInt, ac3 := c.ac3.toInt
    ac4 := c.ac4.toNat, ac5 := c.ac5.toNat, ac6 := c.ac6.toNat
    b1 := c.b1.toInt, b2 := c.b2.toInt, mb := c.mb.toInt, mc := c.mc.toInt, md := c.md.toInt }

/-- `CAL[i] <- v`, in the index order of R27; an index above 10 names nothing. -/
def CalSet.set (c : CalSet) (i : Nat) (v : BitVec 16) : CalSet :=
  match i with
  | 0 => { c with ac1 := v }
  | 1 => { c with ac2 := v }
  | 2 => { c with ac3 := v }
  | 3 => { c with ac4 := v }
  | 4 => { c with ac5 := v }
  | 5 => { c with ac6 := v }
  | 6 => { c with b1 := v }
  | 7 => { c with b2 := v }
  | 8 => { c with mb := v }
  | 9 => { c with mc := v }
  | 10 => { c with md := v }
  | _ => c

/-- `CAL[i]` as the host window shows it: a 32-bit word, sign- or zero-extended by the type of R27 (R42). -/
def CalSet.window (c : CalSet) (i : Nat) : Word :=
  match i with
  | 0 => c.ac1.signExtend 32
  | 1 => c.ac2.signExtend 32
  | 2 => c.ac3.signExtend 32
  | 3 => c.ac4.setWidth 32
  | 4 => c.ac5.setWidth 32
  | 5 => c.ac6.setWidth 32
  | 6 => c.b1.signExtend 32
  | 7 => c.b2.signExtend 32
  | 8 => c.mb.signExtend 32
  | 9 => c.mc.signExtend 32
  | 10 => c.md.signExtend 32
  | _ => 0

/-! ## Operand registers -/

/-- The operand registers an operation reads (R102). -/
def State.operands (s : State) : Operands :=
  { arg0 := s.host.arg0, arg1 := s.host.arg1, arg2 := s.host.arg2, len := s.host.len }

/-- `ARG0` is above `hi`: `IllegalOperand(0)` (R103). -/
def arg0Above (o : Operands) (hi : Nat) : Option Cause :=
  if hi < o.arg0.toNat then some (.illegalOperand 0) else none

/-- The checks of `DSP.INIT` in order of operand number (42_display.md R215 steps 1 to 3). -/
def displayOperands (o : Operands) : Option Cause :=
  if o.arg0.toNat < 1 ∨ 128 < o.arg0.toNat then some (.illegalOperand 0)
  else if o.arg1.toNat < 8 ∨ 64 < o.arg1.toNat ∨ o.arg1.toNat % 8 ≠ 0 then some (.illegalOperand 1)
  else if 0x7F < o.arg2.toNat then some (.illegalOperand 2)
  else none

/-- The checks of `RF.SEND` (43_radio.md R260 steps 1 and 2). -/
def sendOperands (o : Operands) : Option Cause :=
  if 255 < o.arg0.toNat then some (.illegalOperand 0)
  else if 254 < o.len.toNat then some (.illegalOperand 3)
  else none

/-! ## Memories -/

/-- `BUF[i]`: the byte written last, else the free byte of this reset (log 8). -/
def State.bufByte (s : State) (i : Nat) : Byte :=
  (s.host.buf.read? i).getD (Config.bufAtReset s.env.epoch i)

/-- `FB[i]`: the byte written last, else the free byte of this reset (log 8). -/
def State.fbByte (s : State) (i : Nat) : Byte :=
  (s.dsp.fb.read? i).getD (Config.fbAtReset s.env.epoch i)

/-- `BUF[0..LEN−1]`, the text or payload (10_state.md R23, 20_memory.md R74). -/
def State.text (s : State) : List Byte := (List.range s.host.len.toNat).map s.bufByte

/-- `FB[0..FBLEN−1]`, in index order (20_memory.md R72). -/
def State.frameBytes (s : State) : List Byte := (List.range s.dsp.fbLen.toNat).map s.fbByte

/-! ## Text on the display -/

/-- The start offset `row*DSPW*2 + col*6` over the integers (30_encoding.md R106, 42_display.md R225 step 2). -/
def State.textStart (s : State) : Nat :=
  s.host.arg0.toNat * s.dsp.width.toNat * 2 + s.host.arg1.toNat * 6

/-- The framebuffer range check (R225 step 3, R226). -/
def State.textFits (s : State) : Option Cause :=
  if 1 ≤ s.host.len.toNat ∧ s.dsp.fbLen.toNat ≤ s.textStart + 6 * (s.host.len.toNat - 1) + 4
  then some (.illegalOperand 4)
  else none

/-- The glyph of a character code, if the font has one (20_memory.md R73). -/
def glyphOf (font : List Glyph) (c : Byte) : Option Glyph :=
  if c.toNat < 32 then none else font[c.toNat - 32]?

/-- The glyph check (R225 step 4, R227): the first code without a glyph, scanning from `BUF[0]`. -/
def State.textGlyphs (s : State) : Option Cause :=
  (s.text.find? fun c => (glyphOf s.cfg.dsp.font c).isNone).map .unsupportedGlyph

/-- The blit (R225 step 5, R228): each character's five glyph bytes overwrite the framebuffer from `at_`, the next
character six further on. A code without a glyph, which the glyph check has turned away, writes nothing. -/
def blit (font : List Glyph) (m : Memory) (at_ : Nat) : List Byte → Memory
  | [] => m
  | c :: cs =>
    let m' := match glyphOf font c with
      | some g => m.writeBytes at_ g.toList
      | none => m
    blit font m' (at_ + 6) cs

/-! ## Decimal text (30_encoding.md R116, 42_display.md R231) -/

/-- The ASCII code of a decimal digit. -/
def digitCode (d : Nat) : Byte := BitVec.ofNat 8 (0x30 + d)

/-- The last `fuel` decimal digits of `n`, most significant first, without leading zeros (one digit for 0). -/
def decimalDigits : (fuel : Nat) → Nat → List Byte
  | 0, _ => []
  | fuel + 1, n =>
    if n < 10 then [digitCode n]
    else decimalDigits fuel (n / 10) ++ [digitCode (n % 10)]

/-- `Decimal(v)` for a signed 32-bit `v`: at most ten digits, a leading `-` (0x2D) when negative. -/
def decimalText (v : Int) : List Byte :=
  if v < 0 then 0x2D :: decimalDigits 10 v.natAbs else decimalDigits 10 v.natAbs

/-! ## Frequency word (30_encoding.md R111) -/

/-- `FRF = fdiv(f * 1000, 61035) mod 2^24`. -/
def frequencyWord (f : Word) : BitVec 24 := BitVec.ofNat 24 (f.toNat * 1000 / 61035)

end Sys2Proof.Machine
end

