-- ==== Sys2Proof/Machine/HostPort.lean ====
section
/-! DEFINITION. The outside actions (10_state.md R42 to R47; 20_memory.md R62 to R67; 60_exceptions.md R300, R301;
70_reset_and_hazards.md R320 to R322): host reads and writes, idle and busy, `RxEvent`, the reset input; and which
command, if any, the next input is. -/

namespace Sys2Proof.Machine

/-- `s` with these inputs still to come. -/
def State.withInputs (s : State) (l : List Input) : State := { s with env := { s.env with inputs := l } }

/-! ## Host reads -/

/-- What a host read of index `i` returns while `BUSY` = 0 (R42, R46, R47). Write-only and reserved indices read 0. -/
def State.hostValue (s : State) (i : HostIndex) : Word :=
  let n := i.toNat
  if 0x400 ≤ n then
    if n - 0x400 < s.dsp.fbLen.toNat then (s.fbByte (n - 0x400)).setWidth 32 else 0
  else if 0x100 ≤ n ∧ n < 0x200 then (s.bufByte (n - 0x100)).setWidth 32
  else if 0x010 ≤ n ∧ n ≤ 0x01A then s.pt.cal.window (n - 0x010)
  else match n with
    | 0x001 => s.status
    | 0x002 => s.seq.cause.setWidth 32
    | 0x003 => s.host.ret0
    | 0x004 => s.host.ret1
    | 0x005 => s.host.arg0
    | 0x006 => s.host.arg1
    | 0x007 => s.host.arg2
    | 0x008 => s.host.len.setWidth 32
    | 0x01B => s.pt.ut.setWidth 32
    | 0x01C => s.pt.up.setWidth 32
    | 0x01D => s.pt.b5
    | 0x01E => s.pt.addr.setWidth 32
    | 0x020 => s.sw.frame.extractLsb' 0 32
    | 0x021 => (s.sw.frame.extractLsb' 32 8).setWidth 32
    | 0x022 => s.sw.lastT.setWidth 32
    | 0x023 => s.sw.lastH.setWidth 32
    | 0x024 => s.sw.calOff
    | 0x028 => s.dsp.width.setWidth 32
    | 0x029 => s.dsp.height.setWidth 32
    | 0x02A => s.dsp.addr.setWidth 32
    | 0x02B => s.dsp.fbLen.setWidth 32
    | 0x030 => s.rf.frf.setWidth 32
    | 0x031 => s.rf.mode.code.setWidth 32
    | _ => 0

/-- Index of `CMD`. -/
def cmdIndex : HostIndex := 0x000

/-- Index of `STATUS`. -/
def statusIndex : HostIndex := 0x001

/-- A host read (20_memory.md R63, R64): exact while idle, and for `STATUS` always; any other read while
`BUSY` = 1 returns an unspecified word (log 9). No read changes ESPB's own state. -/
def State.hostRead (s : State) (i : HostIndex) : State :=
  if s.seq.busy ∧ i ≠ statusIndex then
    { s with
      env := { s.env with
        hostReads := s.env.hostReads ++ [⟨i, Config.busyRead s.env.freeReads⟩]
        freeReads := s.env.freeReads + 1 } }
  else { s with env := { s.env with hostReads := s.env.hostReads ++ [⟨i, s.hostValue i⟩] } }

/-! ## Host writes -/

/-- The indices whose writes are dropped with `OVR` while `BUSY` = 1: `CMD`, `ARG0..2`, `LEN`, `BUF` (R66). -/
def droppedWhileBusy (i : HostIndex) : Bool :=
  i.toNat = 0x000 || (0x005 ≤ i.toNat && i.toNat ≤ 0x008) || (0x100 ≤ i.toNat && i.toNat < 0x200)

/-- A host write while `BUSY` = 1 (R66). -/
def State.hostWriteBusy (s : State) (i : HostIndex) (v : Word) : State :=
  if i = statusIndex then
    if v.getLsbD 6 then { s with rf := { s.rf with rxpend := false } } else s
  else if droppedWhileBusy i then { s with seq := { s.seq with ovr := true } }
  else s

/-- A host write while `BUSY` = 0 to any index but `CMD` (R42, R43, R46, R47, R63). A write to `CMD` starts an
operation: that is `step`'s. -/
def State.hostWriteIdle (s : State) (i : HostIndex) (v : Word) : State :=
  let n := i.toNat
  if 0x100 ≤ n ∧ n < 0x200 then 
    { s with host := { s.host with buf := s.host.buf.write (n - 0x100) (v.setWidth 8) } }
  else match n with
    | 0x001 =>
      { s with
        rf := { s.rf with rxpend := s.rf.rxpend && !v.getLsbD 6 }
        seq := { s.seq with ovr := s.seq.ovr && !v.getLsbD 7 } }
    | 0x005 => { s with host := { s.host with arg0 := v } }
    | 0x006 => { s with host := { s.host with arg1 := v } }
    | 0x007 => { s with host := { s.host with arg2 := v } }
    | 0x008 => { s with host := { s.host with len := v.setWidth 8 } }
    | _ => s

/-- A host write, idle or busy. -/
def State.hostWrite (s : State) (i : HostIndex) (v : Word) : State :=
  if s.seq.busy then s.hostWriteBusy i v else s.hostWriteIdle i v

/-! ## The receive event and reset -/

/-- `RxEvent`: pending if enabled, else lost; the packet number is discarded (60_exceptions.md R300, 43_radio.md
R268). -/
def State.rxEvent (s : State) : State :=
  if s.rf.rxie then { s with rf := { s.rf with rxpend := true } } else s

/-- The reset input takes a level (70_reset_and_hazards.md R320 to R322): every register at its reset value, no event.
The configuration and the record of the outside stay; the contents of `BUF` and `FB` are free anew (log 16). -/
def State.afterReset (s : State) (asserted : Bool) : State :=
  { State.reset with cfg := s.cfg, env := { s.env with rst := asserted, epoch := s.env.epoch + 1 } }

/-- The action puts every register at its reset value: the reset input is asserted, or is released after it was
asserted (R321: "While it is asserted, and at its release"). Releasing an input that is not asserted is nothing. -/
def State.resetBy (s : State) : External → Bool
  | .rst asserted => asserted || s.env.rst
  | _ => false

/-! ## One outside action -/

/-- What an outside action does to an ESPB that is not held in reset, but for starting an operation. A host write and
an `RxEvent` in the same step: the event wins over the clearing write (R301). -/
def State.external (s : State) : External → State
  | .hostRead i => s.hostRead i
  | .hostWrite i v => s.hostWrite i v
  | .rxEvent _ => s.rxEvent
  | .hostWriteRx i v _ => (s.hostWrite i v).rxEvent
  | .rst asserted => if s.resetBy (.rst asserted) then s.afterReset asserted else s

/-- What an outside action does while the reset input is asserted: all state keeps the values of R320 (R321), so a
host write, `CMD` included, and an `RxEvent` do nothing; a host read shows those values (log 16). -/
def State.externalHeld (s : State) : External → State
  | .hostRead i => s.hostRead i
  | .hostWrite _ _ => s
  | .rxEvent _ => s
  | .hostWriteRx _ _ _ => s
  | .rst asserted => s.afterReset asserted

/-- The next input of an ESPB held in reset, acted on. -/
def State.held (s : State) : State :=
  match s.env.inputs with
  | [] => s
  | .answer _ :: rest => s.withInputs rest
  | .pass :: rest => s.withInputs rest
  | .ext e :: rest => (s.withInputs rest).externalHeld e
  | .early e :: rest => (s.withInputs rest).externalHeld e

/-! ## The next input of an idle ESPB -/

/-- What an idle ESPB finds next. -/
inductive Fetched where
  /-- No input: ESPB does nothing (60_exceptions.md R307). -/
  | nothing
  /-- A host write of command word `w`; `s` is the state with that input taken. -/
  | command (w : Word) (s : State)
  /-- Any other input, already acted on. -/
  | handled (s : State)
deriving DecidableEq, Repr

/-- The input an idle ESPB acts on next. An answer nobody waits for is dropped (log 13), and
so is a `pass`: SEQ has no step to take. -/
def State.fetch (s : State) : Fetched :=
  match s.env.inputs with
  | [] => .nothing
  | inp :: rest =>
    let t := s.withInputs rest
    match inp with
    | .answer _ => .handled t
    | .pass => .handled t
    | .ext (.hostWrite i v) => if i = cmdIndex then .command v t else .handled (t.external (.hostWrite i v))
    | .early (.hostWrite i v) => if i = cmdIndex then .command v t else .handled (t.external (.hostWrite i v))
    | .ext (.hostWriteRx i v n) =>
      if i = cmdIndex then .command v t.rxEvent else .handled (t.external (.hostWriteRx i v n))
    | .early (.hostWriteRx i v n) =>
      if i = cmdIndex then .command v t.rxEvent else .handled (t.external (.hostWriteRx i v n))
    | .ext e => .handled (t.external e)
    | .early e => .handled (t.external e)

/-- The state in which the next input is a host write of command word `w` to an idle ESPB: an operation in flight is
gone, the reset input is released, everything else is as it was (log 15). -/
def State.awaitCommand (s : State) (w : Word) : State :=
  { s with
    seq := { s.seq with busy := false, phase := 0, acc := 0, polls := 0, midRead := false }
    env := { s.env with rst := false, inputs := .ext (.hostWrite cmdIndex w) :: s.env.inputs } }

end Sys2Proof.Machine
end

