-- ==== Sys2Proof/Machine/Ops.lean ====
section
/-! DEFINITION. How SEQ runs an operation: ending it (`raise`, `done`), one port primitive, and a list of steps.

An operation is a LIST OF STEPS, the numbered lines of its rule with its counted loops written out (10_state.md R24;
log 11). A step either lets SEQ go on (possibly over the next few steps: a conditional that names its target), ends
the operation, or waits for an answer the environment has not given yet, in which case SEQ stays at that step. -/

namespace Sys2Proof.Machine

/-! ## Ending an operation -/

/-- The operation is over with this `CAUSE`: idle, no step, no temporaries, no pin driven. -/
def State.endWith (s : State) (cause : BitVec 16) : State :=
  { s with
    seq := { s.seq with
      busy := false, phase := 0, cause := cause, acc := 0, polls := 0, midRead := false, pinLow := none } }

/-- Taking an exception: `raise Cause(info)` (60_exceptions.md R296). -/
def State.raise (s : State) (c : Cause) : State := s.endWith c.word

/-- Normal completion: `done` (R297). There is no return from an exception, because nothing was entered (R298). -/
def State.done (s : State) : State := s.endWith 0

/-! ## What a step does -/

/-- What comes of a step. -/
inductive Stepped where
  /-- SEQ goes on, passing over the next `skip` steps. -/
  | go (skip : Nat) (s : State)
  /-- The operation is over. -/
  | ended (s : State)
  /-- The step waits for an answer. -/
  | wait (s : State)
deriving DecidableEq, Repr

/-- What comes of one answer inside a step that may ask again. -/
inductive Served where
  /-- The loop goes round. -/
  | again (s : State)
  /-- The step is over. -/
  | leave (r : Stepped)
deriving DecidableEq, Repr

/-- One step of an operation. -/
abbrev MicroStep := State → Stepped

/-! ## Port primitives -/

/-- What a primitive returns of a raw answer: the widths of 00_scope.md R6. `ack` is true where there is none. -/
def Prim.returns (p : Prim) (a : Answer) : Answer :=
  let low (n : Nat) : BitVec 24 := BitVec.ofNat 24 (a.data.toNat % 2 ^ n)
  match p with
  | .twWrite8 .. => ⟨a.ack, 0⟩
  | .twRead8 .. => ⟨a.ack, low 8⟩
  | .twRead16 .. => ⟨a.ack, low 16⟩
  | .twReadS16 .. => ⟨a.ack, low 16⟩
  | .twRead24 .. => ⟨a.ack, a.data⟩
  | .twWriteBlock .. => ⟨a.ack, 0⟩
  | .spiXfer _ => ⟨true, low 8⟩
  | .pinWrite .. => ⟨true, 0⟩
  | .pinRead _ => ⟨true, low 1⟩
  | .pinPull .. => ⟨true, 0⟩
  | .delayMs _ => ⟨true, 0⟩
  | .delayUs _ => ⟨true, 0⟩

/-- The answer of a primitive that returns nothing. -/
def Answer.nothing : Answer := ⟨true, 0⟩

/-- Record a completed event (R14). -/
def State.record (s : State) (p : Prim) (a : Answer) : State :=
  { s with env := { s.env with trace := s.env.trace ++ [⟨p, a⟩] } }

/-- Call `prim` and act on its answer with `k`, again as long as `k` says so. Outside actions that come before the
answer land now; reset ends the operation; a `pass` is nothing, since SEQ has no step to take. Without an answer the
step waits. -/
def serve (prim : State → Prim) (k : Answer → State → Served) : List Input → State → Stepped
  | [], s => .wait (s.withInputs [])
  | .pass :: rest, s => serve prim k rest (s.withInputs rest)
  | .answer raw :: rest, s =>
    let p := prim s
    let a := p.returns raw
    match k a ((s.withInputs rest).record p a) with
    | .again s' => serve prim k rest s'
    | .leave r => r
  | .ext e :: rest, s =>
    let s' := (s.withInputs rest).external e
    if s.resetBy e then .ended s' else serve prim k rest s'
  | .early e :: rest, s =>
    let s' := (s.withInputs rest).external e
    if s.resetBy e then .ended s' else serve prim k rest s'

/-- A step that calls a primitive once and then does `k`. -/
def ask (prim : State → Prim) (k : Answer → State → Stepped) : MicroStep :=
  fun s => serve prim (fun a t => .leave (k a t)) s.env.inputs s

/-- A step that calls a primitive which returns nothing (log 20), and changes the state by `f`. -/
def perform (prim : State → Prim) (f : State → State) : MicroStep :=
  fun s => .go 0 (f (s.record (prim s) Answer.nothing))

/-- A two-wire access: `BusError(info)` when it is not acknowledged, else `f` with the data (40_compensator.md R160,
42_display.md R213). -/
def twAccess (prim : State → Prim) (info : Byte) (f : BitVec 24 → State → State) : MicroStep :=
  ask prim fun a s => if a.ack then .go 0 (f a.data s) else .ended (s.raise (.busError info))

/-- `DelayMs(n)`. -/
def delayMsStep (n : State → Nat) : MicroStep := perform (fun s => .delayMs (n s)) id

/-- `DelayUs(n)`. -/
def delayUsStep (n : Nat) : MicroStep := perform (fun _ => .delayUs n) id

/-! ## Internal steps -/

/-- A step that only changes registers. -/
def act (f : State → State) : MicroStep := fun s => .go 0 (f s)

/-- A guard: `raise` if it finds a cause. -/
def guardStep (f : State → Option Cause) : MicroStep := fun s =>
  match f s with
  | some c => .ended (s.raise c)
  | none => .go 0 s

/-- The last step: write results, then `done`. -/
def finish (f : State → State) : MicroStep := fun s => .ended (f s).done

/-- The unit guard: `NotInitialized(unit)` unless the flag is set. -/
def needsInit (flag : State → Bool) (unitNumber : Byte) : MicroStep :=
  guardStep fun s => if flag s then none else some (.notInitialized unitNumber)

/-! ## Running steps -/

/-- The outside actions that come before SEQ's next step; a `pass` says that the step comes now (log 3). -/
def absorb : List Input → State → Stepped
  | .early e :: rest, s =>
    let s' := (s.withInputs rest).external e
    if s.resetBy e then .ended s' else absorb rest s'
  | .pass :: rest, s => .go 0 (s.withInputs rest)
  | _, s => .go 0 s

/-- `phase` moves on by one step. -/
def State.nextPhase (s : State) : State := { s with seq := { s.seq with phase := s.seq.phase + 1 } }

/-- Run a list of steps, passing over the first `skip`. `go k s` at the end: the list is over, `k` steps of what
follows it are passed over. -/
def runSteps : List MicroStep → Nat → State → Stepped
  | [], k, s => .go k s
  | _ :: ms, k + 1, s => runSteps ms k s.nextPhase
  | m :: ms, 0, s =>
    match absorb s.env.inputs s with
    | .go _ s1 =>
      match m s1 with
      | .go k s2 => runSteps ms k s2.nextPhase
      | .ended s2 => .ended s2
      | .wait s2 => .wait s2
    | r => r

/-- The state after a run: an operation that has run out of steps is done. -/
def Stepped.state : Stepped → State
  | .go _ s => s.done
  | .ended s => s
  | .wait s => s

/-- The start of an operation: `BUSY <- 1`, `OP <- opcode`, `phase <- 1` (30_encoding.md R101). -/
def State.start (s : State) (opc : Byte) : State :=
  { s with seq := { s.seq with busy := true, op := opc, phase := 1, acc := 0, polls := 0, midRead := false } }

/-- Run an operation: from its first step if ESPB is idle, else from the step it is at, as far as the inputs given
so far let it. -/
def State.launch (s : State) (opc : Byte) (program : State → List MicroStep) : State :=
  let t := if s.seq.busy then s else s.start opc
  (runSteps ((program t).drop (t.seq.phase - 1)) 0 t).state

/-- The illegal command (30_encoding.md R104): `OP <- w[7:0]`, then `IllegalCommand(w[7:0])`. -/
def State.illegalCommand (s : State) (low : Byte) : State :=
  s.launch low fun _ => [guardStep fun _ => some (.illegalCommand low)]

end Sys2Proof.Machine
end

