-- ==== Sys2Proof/Machine/Compensator.lean ====
section
/-! DEFINITION. PTC, the pressure/temperature compensator (40_compensator.md R140 to R162): `PT.INIT`, `PT.READT`,
`PT.READP`. -/

namespace Sys2Proof.Machine

/-! ## First stage (R143, R145) -/

/-- Steps M4 to M6: `B5` from the raw temperature and the calibration. -/
def compB5 (div0 : Int) (k : Coefs) (ut : BitVec 16) : Int :=
  let x1 := fdiv div0 ((ut.toNat - k.ac6) * k.ac5) (2 ^ 15)
  let x2 := fdiv div0 (k.mc * 2 ^ 11) (x1 + k.md)
  x1 + x2

/-- Step M7: `T10 = fdiv(B5 + 8, 16)`, from the register `B5`. -/
def compT10 (div0 : Int) (b5 : Word) : Int := fdiv div0 (b5.toInt + 8) 16

/-! ## Second stage (R150 steps 6 to 10, R152 to R156) -/

/-- `Stage2a` of R153: `B3` and `B4` (PRESUMED formula, log 10). -/
def dataSheetStage2a (div0 : Int) (oss : Nat) (b5 : Int) (k : Coefs) : Int × Word :=
  let b6 := b5 - 4000
  let xa := fdiv div0 (k.b2 * fdiv div0 (b6 * b6) (2 ^ 12)) (2 ^ 11)
  let xb := fdiv div0 (k.ac2 * b6) (2 ^ 11)
  let xc := xa + xb
  let b3 := fdiv div0 ((k.ac1 * 4 + xc) * 2 ^ oss + 2) 4
  let xd := fdiv div0 (k.ac3 * b6) (2 ^ 13)
  let xe := fdiv div0 (k.b1 * fdiv div0 (b6 * b6) (2 ^ 12)) (2 ^ 16)
  let xf := fdiv div0 (xd + xe + 2) 4
  let b4 := fdiv div0 ((k.ac4 * ((xf + 32768) % 2 ^ 32)) % 2 ^ 32) (2 ^ 15)
  (b3, BitVec.ofInt 32 b4)

/-- `Stage2b` of R155 (PRESUMED formula, log 10). -/
def dataSheetStage2b (div0 : Int) (p0 : Int) : Int :=
  let xg := fdiv div0 p0 (2 ^ 8) * fdiv div0 p0 (2 ^ 8)
  let xh := fdiv div0 (xg * 3038) (2 ^ 16)
  let xi := fdiv div0 (-7357 * p0) (2 ^ 16)
  p0 + fdiv div0 (xh + xi + 3791) (2 ^ 4)

/-- `Stage2a` of the configuration (R152). -/
def stage2a (c : PtConfig) (b5 : Int) (k : Coefs) : Int × Word :=
  match c.stage2 with
  | .dataSheet => dataSheetStage2a c.div0 c.oss b5 k
  | .other => Config.otherStage2a b5 k

/-- `Stage2b` of the configuration (R152). -/
def stage2b (c : PtConfig) (p0 : Int) : Int :=
  match c.stage2 with
  | .dataSheet => dataSheetStage2b c.div0 p0
  | .other => Config.otherStage2b p0

/-- Step 7: `B7`, unsigned and wrapping modulo 2^32. -/
def compB7 (c : PtConfig) (up : BitVec 19) (b3 : Int) : Word :=
  BitVec.ofInt 32 ((up.toNat - b3) * fdiv c.div0 50000 (2 ^ c.oss))

/-- Step 8, the `B7` branch (R154): which of doubling and dividing comes first. -/
def compPu (div0 : Int) (b7 b4 : Word) : Word :=
  if b7.toNat < 2 ^ 31 then BitVec.ofInt 32 (fdiv div0 (b7.toNat * 2) b4.toNat)
  else BitVec.ofInt 32 (fdiv div0 b7.toNat b4.toNat * 2)

/-- Step 10: Pa to 0.1 hPa (R156). -/
def compP10 (c : PtConfig) (p : Int) : Int :=
  match c.round with
  | .halfUp => fdiv c.div0 (p + 5) 10
  | .other => Config.otherRound p

/-- Steps 6 to 9: the pressure in Pa, from the registers `B5`, `UP`, `CAL`. -/
def compPressure (c : PtConfig) (k : Coefs) (b5 : Word) (up : BitVec 19) : Int :=
  let (b3, b4) := stage2a c b5.toInt k
  let b7 := compB7 c up b3
  stage2b c (compPu c.div0 b7 b4).toInt

/-! ## Steps -/

/-- The register of calibration coefficient `i` (`PT_CAL_REG[i]`). -/
def calRegister (c : PtConfig) (i : Nat) : Byte := (c.calReg[i]?).getD 0

/-- R141 steps 3 to 5: read coefficient `i`, unsigned for AC4 to AC6, signed for the others. -/
def readCoefficient (i : Nat) : MicroStep :=
  twAccess
    (fun s =>
      if 3 ≤ i ∧ i ≤ 5 then .twRead16 s.pt.addr (calRegister s.cfg.pt i)
      else .twReadS16 s.pt.addr (calRegister s.cfg.pt i))
    (BitVec.ofNat 8 i)
    (fun d s => { s with pt.cal := s.pt.cal.set i (d.setWidth 16) })

/-- R141. -/
def ptInitSteps : List MicroStep :=
  [guardStep fun s => arg0Above s.operands 0x7F,
   act fun s => { s with pt.init := false, pt.addr := s.host.arg0.extractLsb' 0 7 }]
  ++ (List.range 11).map readCoefficient
  ++ [finish fun s => { s with pt.init := true }]

/-- `MeasureT` (R143); its last step is M4 to M6 (M7 is `compT10` of the register). -/
def measureT : List MicroStep :=
  [twAccess (fun s => .twWrite8 s.pt.addr s.cfg.pt.regCtrl s.cfg.pt.cmdTemp) 11 (fun _ s => s),
   delayMsStep fun _ => Config.ptSettleTMs,
   twAccess (fun s => .twRead16 s.pt.addr s.cfg.pt.regData) 12
     (fun d s => { s with pt.ut := d.setWidth 16 }),
   act fun s => { s with pt.b5 := BitVec.ofInt 32 (compB5 s.cfg.pt.div0 s.pt.cal.coefs s.pt.ut) }]

/-- R144. -/
def ptReadTSteps : List MicroStep :=
  [needsInit (fun s => s.pt.init) 1] ++ measureT ++
  [finish fun s =>
    { s with host.ret0 := BitVec.ofInt 32 (compT10 s.cfg.pt.div0 s.pt.b5), host.ret1 := s.pt.b5 }]

/-- R150. -/
def ptReadPSteps : List MicroStep :=
  [needsInit (fun s => s.pt.init) 1] ++ measureT ++
  [twAccess (fun s => .twWrite8 s.pt.addr s.cfg.pt.regCtrl s.cfg.pt.cmdPres) 13 (fun _ s => s),
   delayMsStep fun _ => Config.ptSettlePMs,
   twAccess (fun s => .twRead24 s.pt.addr s.cfg.pt.regData) 14
     (fun d s => { s with pt.up := (d >>> s.cfg.pt.upShift).setWidth 19 }),
   finish fun s =>
     let p := compPressure s.cfg.pt s.pt.cal.coefs s.pt.b5 s.pt.up
     { s with
       host.ret0 := BitVec.ofInt 32 (compP10 s.cfg.pt p)
       host.ret1 := BitVec.ofInt 32 p }]

/-! ## Meanings -/

/-- `PT.INIT` (R141). -/
def execPtInit (s : State) : Host.Outcome State Fault Refusal :=
  .next (s.launch (opcodeOf .ptInit) fun _ => ptInitSteps)

/-- `PT.READT` (R144). -/
def execPtReadT (s : State) : Host.Outcome State Fault Refusal :=
  .next (s.launch (opcodeOf .ptReadT) fun _ => ptReadTSteps)

/-- `PT.READP` (R150). -/
def execPtReadP (s : State) : Host.Outcome State Fault Refusal :=
  .next (s.launch (opcodeOf .ptReadP) fun _ => ptReadPSteps)

end Sys2Proof.Machine
end

