-- ==== Sys2Proof/Machine/Display.lean ====
section
/-! DEFINITION. FTR, the framebuffer text renderer (42_display.md R210 to R233): `DSP.INIT`, `DSP.CLEAR`,
`DSP.SHOWSTR`, `DSP.SHOWNUM`. -/

namespace Sys2Proof.Machine

/-- `DspCmd(byte, k)` (R212; 30_encoding.md R113): one command or operand byte, one two-wire write. -/
def dspCmd (byte : State → Byte) (k : Byte) : MicroStep :=
  twAccess (fun s => .twWrite8 s.dsp.addr s.cfg.dsp.ctrlCmd (byte s)) k (fun _ s => s)

/-- The value of a byte expression of R214 for a display of height `h`. -/
def InitByte.value (b : InitByte) (h : Byte) : Byte :=
  match b with
  | .fixed v => v
  | .heightLessOne => h - 1
  | .ifHeight32 yes no => if h = 32 then yes else no

/-- R214 steps 1 to 16: the bytes of the configured list, in list order, each with its `k`. -/
def initListSteps (c : DspConfig) : List MicroStep :=
  c.initList.map fun e => dspCmd (fun s => InitByte.value e.byte s.dsp.height) e.info

/-- `Flush` (R222; 30_encoding.md R114). -/
def flushSteps : List MicroStep :=
  [dspCmd (fun s => s.cfg.dsp.cColAddr) 0x40,
   dspCmd (fun _ => 0x00) 0x41,
   dspCmd (fun s => s.dsp.width - 1) 0x42,
   dspCmd (fun s => s.cfg.dsp.cPageAddr) 0x43,
   dspCmd (fun _ => 0x00) 0x44,
   dspCmd (fun s => s.dsp.height / 8 - 1) 0x45,
   twAccess (fun s => .twWriteBlock s.dsp.addr (s.cfg.dsp.ctrlData :: s.frameBytes)) 0x46 (fun _ s => s)]

/-- `DSPW * DSPH / 8` (R211). -/
def geometryLength (w h : Byte) : BitVec 11 := BitVec.ofNat 11 (w.toNat * h.toNat / 8)

/-- K1 and K2 of `ClearAndFlush` (R221): the length computed again, every byte of it zero. -/
def clearFrame (s : State) : State :=
  let n := geometryLength s.dsp.width s.dsp.height
  { s with dsp.fbLen := n, dsp.fb := s.dsp.fb.zeroFill n.toNat }

/-- `ClearAndFlush` (R221). -/
def clearAndFlush : List MicroStep := act clearFrame :: flushSteps

/-- R215 step 4. -/
def setGeometry (s : State) : State :=
  let w : Byte := s.host.arg0.extractLsb' 0 8
  let h : Byte := s.host.arg1.extractLsb' 0 8
  { s with
    dsp.init := false, dsp.width := w, dsp.height := h, dsp.addr := s.host.arg2.extractLsb' 0 7
    dsp.fbLen := geometryLength w h }

/-- R215. The list of initialization bytes is the configuration's. -/
def dspInitSteps (c : DspConfig) : List MicroStep :=
  [guardStep fun s => displayOperands s.operands, act setGeometry]
  ++ initListSteps c
  ++ clearAndFlush
  ++ [finish fun s => { s with dsp.init := true }]

/-- R220. -/
def dspClearSteps : List MicroStep :=
  [needsInit (fun s => s.dsp.init) 3] ++ clearAndFlush ++ [finish id]

/-- The blit of the text in `BUF` (R225 step 5). -/
def drawText (s : State) : State :=
  { s with dsp.fb := blit s.cfg.dsp.font s.dsp.fb s.textStart s.text }

/-- R225 steps 2 to 7. -/
def textSteps : List MicroStep :=
  [guardStep State.textFits, guardStep State.textGlyphs, act drawText] ++ flushSteps ++ [finish id]

/-- R225. -/
def dspShowStrSteps : List MicroStep := needsInit (fun s => s.dsp.init) 3 :: textSteps

/-- R230 step 2: the decimal text of `ARG2` into `BUF` and `LEN`. -/
def formatNumber (s : State) : State :=
  let text := decimalText s.host.arg2.toInt
  { s with host.len := BitVec.ofNat 8 text.length, host.buf := s.host.buf.writeBytes 0 text }

/-- R230. -/
def dspShowNumSteps : List MicroStep := needsInit (fun s => s.dsp.init) 3 :: act formatNumber :: textSteps

/-! ## Meanings -/

/-- `DSP.INIT` (R215). -/
def execDspInit (s : State) : Host.Outcome State Fault Refusal :=
  .next (s.launch (opcodeOf .dspInit) fun t => dspInitSteps t.cfg.dsp)

/-- `DSP.CLEAR` (R220). -/
def execDspClear (s : State) : Host.Outcome State Fault Refusal :=
  .next (s.launch (opcodeOf .dspClear) fun _ => dspClearSteps)

/-- `DSP.SHOWSTR` (R225). -/
def execDspShowStr (s : State) : Host.Outcome State Fault Refusal :=
  .next (s.launch (opcodeOf .dspShowStr) fun _ => dspShowStrSteps)

/-- `DSP.SHOWNUM` (R230). -/
def execDspShowNum (s : State) : Host.Outcome State Fault Refusal :=
  .next (s.launch (opcodeOf .dspShowNum) fun _ => dspShowNumSteps)

end Sys2Proof.Machine
end

