-- ==== Sys2Proof/Machine/Radio.lean ====
section
/-! DEFINITION. RFC, the radio transceiver FIFO controller (43_radio.md R250 to R271): `RF.INIT`, `RF.SEND`,
`RF.ONRECV`. -/

namespace Sys2Proof.Machine

/-! ## Register bus (20_memory.md R70, 30_encoding.md R110) -/

/-- One `SpiXfer` whose return byte is discarded, then `f`. -/
def spiStep (b : State → Byte) (f : State → State) : MicroStep :=
  ask (fun s => .spiXfer (b s)) fun _ s => .go 0 (f s)

/-- The first byte of a register write: the address with the high bit set (`RF_WRITE_FLAG`). -/
def writeAddress (r : RfReg) : Byte := 1#1 ++ r

/-- The first byte of a register read: the address with the high bit clear. -/
def readAddress (r : RfReg) : Byte := 0#1 ++ r

/-- `RfWrite(reg, v)`, and `f` in the step of its second byte. -/
def rfWrite (reg : State → RfReg) (v : State → Byte) (f : State → State) : List MicroStep :=
  [spiStep (fun s => writeAddress (reg s)) id, spiStep v f]

/-- The value written for a mode (R253). -/
def modeValue (c : RfConfig) : RfMode → Byte
  | .sleep => c.modeSleep
  | .transmit => c.modeTx
  | .standby => c.modeStdby
  | .unknown => c.modeStdby

/-- `SetMode(m)` (R253): `RFMODE` changes with the second byte. -/
def setMode (m : RfMode) : List MicroStep :=
  rfWrite (fun s => s.cfg.rf.regOpMode) (fun s => modeValue s.cfg.rf m) (fun s => { s with rf.mode := m })

/-- `RfWrite` of each pair of a configured list, in list order. -/
def rfWriteAll (l : List (RfReg × Byte)) : List MicroStep :=
  l.flatMap fun rv => rfWrite (fun _ => rv.1) (fun _ => rv.2) id

/-! ## RF.INIT (R255) -/

/-- R255. The lists of modem and preamble writes are the configuration's. -/
def rfInitSteps (c : RfConfig) : List MicroStep :=
  setMode .sleep
  ++ [delayMsStep fun s => s.cfg.rf.delay1Ms,
      act fun s => { s with rf.frf := frequencyWord s.host.arg0 }]
  ++ rfWrite (fun s => s.cfg.rf.regFrfMsb) (fun s => s.rf.frf.extractLsb' 16 8) id
  ++ rfWrite (fun s => s.cfg.rf.regFrfMid) (fun s => s.rf.frf.extractLsb' 8 8) id
  ++ rfWrite (fun s => s.cfg.rf.regFrfLsb) (fun s => s.rf.frf.extractLsb' 0 8) id
  ++ rfWriteAll c.modemWrites
  ++ rfWrite (fun s => s.cfg.rf.regPaConfig) (fun s => s.cfg.rf.paValue) id
  ++ rfWriteAll c.preambleWrites
  ++ rfWrite (fun s => s.cfg.rf.regSyncWord) (fun s => s.cfg.rf.syncWord) id
  ++ setMode .standby
  ++ [delayMsStep fun s => s.cfg.rf.delay2Ms,
      finish fun s => { s with rf.init := true }]

/-! ## RF.SEND (R260 to R263) -/

/-- R260 steps 12 and 13: what follows the poll when the flag was seen. -/
def afterTxDone : List MicroStep :=
  rfWrite (fun s => s.cfg.rf.regIrqFlags) (fun _ => 0xFF) id ++ setMode .standby ++ [finish id]

/-- The exit of R262 W3: Standby, then `Timeout(0xC0)` (R263). -/
def afterTxTimeout : List MicroStep :=
  setMode .standby ++ [guardStep fun _ => some (.timeout 0xC0)]

/-- `WaitTxDone` (R262): read the flag register until its transmit-done bit is set, at most `RF_POLL_MAX` times. A
read is two bytes; `midRead` says the first is sent. On expiry SEQ goes on at the Standby write of W3. -/
def waitTxDone : MicroStep := fun s =>
  if s.seq.midRead = false ∧ s.cfg.rf.pollMax = some s.seq.polls then
    .go afterTxDone.length { s with seq.polls := 0 }
  else
    serve
      (fun t => if t.seq.midRead then .spiXfer t.cfg.rf.dummy else .spiXfer (readAddress t.cfg.rf.regIrqFlags))
      (fun a t =>
        if t.seq.midRead = false then .again { t with seq.midRead := true }
        else
          let count := t.seq.polls + 1
          if a.data.setWidth 8 &&& t.cfg.rf.irqTxDone ≠ 0 then
            .leave (.go 0 { t with seq.midRead := false, seq.polls := 0 })
          else if t.cfg.rf.pollMax = some count then
            .leave (.go afterTxDone.length { t with seq.midRead := false, seq.polls := 0 })
          else .again { t with seq.midRead := false, seq.polls := count })
      s.env.inputs s

/-- R260, for the payload in `BUF[0..LEN−1]` (it cannot change while the operation runs, 20_memory.md R67). -/
def rfSendSteps (payload : List Byte) : List MicroStep :=
  [guardStep fun s => sendOperands s.operands,
   needsInit (fun s => s.rf.init) 4]
  ++ setMode .standby
  ++ rfWrite (fun s => s.cfg.rf.regFifoTxBase) (fun s => s.host.arg0.extractLsb' 0 8) id
  ++ rfWrite (fun s => s.cfg.rf.regFifoAddrPtr) (fun s => s.host.arg0.extractLsb' 0 8) id
  ++ rfWrite (fun s => s.cfg.rf.regPayloadLen) (fun s => s.host.len + 1) id
  ++ rfWrite (fun s => s.cfg.rf.regFifo) (fun _ => 0x00) id
  ++ payload.flatMap (fun b => rfWrite (fun s => s.cfg.rf.regFifo) (fun _ => b) id)
  ++ setMode .transmit
  ++ [waitTxDone]
  ++ afterTxDone
  ++ afterTxTimeout

/-- R267. -/
def rfOnRecvSteps : List MicroStep :=
  [finish fun s => { s with rf.rxie := true }]

/-! ## Meanings -/

/-- `RF.INIT` (R255). -/
def execRfInit (s : State) : Host.Outcome State Fault Refusal :=
  .next (s.launch (opcodeOf .rfInit) fun t => rfInitSteps t.cfg.rf)

/-- `RF.SEND` (R260). -/
def execRfSend (s : State) : Host.Outcome State Fault Refusal :=
  .next (s.launch (opcodeOf .rfSend) fun t => rfSendSteps t.text)

/-- `RF.ONRECV` (R267). -/
def execRfOnRecv (s : State) : Host.Outcome State Fault Refusal :=
  .next (s.launch (opcodeOf .rfOnRecv) fun _ => rfOnRecvSteps)

end Sys2Proof.Machine
end

