-- ==== Sys2Proof/Machine/SingleWire.lean ====
section
/-! DEFINITION. SWD, the single-wire decoder (41_single_wire.md R180 to R198): `SW.READT`, `SW.READH`, `SW.SETCAL`. -/

namespace Sys2Proof.Machine

/-- The pin of the operation in flight, `ARG0[7:0]` (R190, R191). -/
def State.pin (s : State) : PinId := s.host.arg0.extractLsb' 0 8

/-- The level a `PinRead` returned. -/
def Answer.level (a : Answer) : Bool := a.data.getLsbD 0

/-- `WaitWhile(p, L, id)` (R181): read the pin until its level is not `stay`, at most `SW_POLL_MAX` times. -/
def waitWhile (stay : Bool) (id : Byte) : MicroStep := fun s =>
  serve (fun t => .pinRead t.pin)
    (fun a t =>
      if a.level ≠ stay then .leave (.go 0 { t with seq.polls := 0 })
      else
        let n := t.seq.polls + 1
        if t.cfg.swPollMax = some n then
          .leave (.ended ({ t with sw.stat := .timeout }.raise (.timeout id)))
        else .again { t with seq.polls := n })
    s.env.inputs s

/-- S9 to S12 for bit `i` (R183, R186). -/
def sampleBit (i : Nat) : List MicroStep :=
  [waitWhile false (BitVec.ofNat 8 (0x40 + i)),
   delayUsStep Config.swSampleUs,
   ask (fun s => .pinRead s.pin) fun a s =>
     .go 0 { s with seq.acc := (s.seq.acc <<< 1) ||| (BitVec.ofBool a.level).setWidth 40 },
   waitWhile true (BitVec.ofNat 8 (0x80 + i))]

/-- S14 and S15: store the frame; accept it if its checksum is right (R187, R188). -/
def decodeFrame (s : State) : State :=
  let f := s.seq.acc
  let hum : Byte := f.extractLsb' 32 8
  let temp : Byte := f.extractLsb' 16 8
  let ck : Byte := f.extractLsb' 0 8
  if ck = hum + temp then
    { s with
      sw.frame := f, sw.lastH := hum, sw.lastT := temp, sw.haveFrame := true, sw.stat := .accepted }
  else { s with sw.frame := f, sw.stat := .checksumMismatch }

/-- S6 to S15: what follows a sensor's response. -/
def swAnswered : List MicroStep :=
  [waitWhile false 0x06, waitWhile true 0x07, act fun s => { s with seq.acc := 0 }]
  ++ (List.range Config.swBits).flatMap sampleBit
  ++ [act decodeFrame]

/-- `SwRead` (R183). At S5 a high line means no response: the rest of the read is passed over (R184). -/
def swRead : List MicroStep :=
  [perform (fun s => .pinWrite s.pin false) (fun s => { s with seq.pinLow := some s.pin }),
   delayMsStep fun _ => Config.swResetMs,
   perform (fun s => .pinPull s.pin .up) (fun s => { s with seq.pinLow := none }),
   delayUsStep Config.swReleaseUs,
   ask (fun s => .pinRead s.pin) fun a s =>
     if a.level then .go swAnswered.length { s with sw.stat := .noResponse } else .go 0 s]
  ++ swAnswered

/-- R190. -/
def swReadTSteps : List MicroStep :=
  [guardStep fun s => arg0Above s.operands 255] ++ swRead ++
  [finish fun s => { s with host.ret0 := s.sw.lastT.setWidth 32 + s.sw.calOff }]

/-- R191. -/
def swReadHSteps : List MicroStep :=
  [guardStep fun s => arg0Above s.operands 255] ++ swRead ++
  [finish fun s => { s with host.ret0 := s.sw.lastH.setWidth 32 }]

/-- R192: no validation. -/
def swSetCalSteps : List MicroStep :=
  [finish fun s => { s with sw.calOff := s.host.arg0 }]

/-! ## Meanings -/

/-- `SW.READT` (R190). -/
def execSwReadT (s : State) : Host.Outcome State Fault Refusal :=
  .next (s.launch (opcodeOf .swReadT) fun _ => swReadTSteps)

/-- `SW.READH` (R191). -/
def execSwReadH (s : State) : Host.Outcome State Fault Refusal :=
  .next (s.launch (opcodeOf .swReadH) fun _ => swReadHSteps)

/-- `SW.SETCAL` (R192). -/
def execSwSetCal (s : State) : Host.Outcome State Fault Refusal :=
  .next (s.launch (opcodeOf .swSetCal) fun _ => swSetCalSteps)

end Sys2Proof.Machine
end

