-- ==== Sys2Proof/Machine/Dispatch.lean ====
section
/-! DEFINITION. One arm per operation (30_encoding.md R100). -/

namespace Sys2Proof.Machine

def exec (i : Instr) (s : State) : Host.Outcome State Fault Refusal :=
  match i with
  | .ptInit => Sys2Proof.Machine.execPtInit s
  | .ptReadT => Sys2Proof.Machine.execPtReadT s
  | .ptReadP => Sys2Proof.Machine.execPtReadP s
  | .swReadT => Sys2Proof.Machine.execSwReadT s
  | .swReadH => Sys2Proof.Machine.execSwReadH s
  | .swSetCal => Sys2Proof.Machine.execSwSetCal s
  | .dspInit => Sys2Proof.Machine.execDspInit s
  | .dspClear => Sys2Proof.Machine.execDspClear s
  | .dspShowStr => Sys2Proof.Machine.execDspShowStr s
  | .dspShowNum => Sys2Proof.Machine.execDspShowNum s
  | .rfInit => Sys2Proof.Machine.execRfInit s
  | .rfSend => Sys2Proof.Machine.execRfSend s
  | .rfOnRecv => Sys2Proof.Machine.execRfOnRecv s

end Sys2Proof.Machine
end

