-- ==== Sys2Proof/Machine/Step.lean ====
section
/-! DEFINITION. One step of ESPB. While the reset input is asserted it is held (70_reset_and_hazards.md R321). While
an operation is in flight, SEQ goes on with it as far as the inputs let it; an idle ESPB acts on the next input: a
`CMD` write starts an operation (30_encoding.md R101) or an illegal command (R104), anything else is one outside
action. Without an input nothing happens (60_exceptions.md R307). -/

namespace Sys2Proof.Machine

/-- A command word written to an idle ESPB (30_encoding.md R101, R104). -/
def command (w : Word) (s : State) : Host.Outcome State Fault Refusal :=
  match decode w with
  | .ok i => exec i s
  | .error _ => .next (s.illegalCommand (opcField w))

/-- The operation in flight goes on. (`OP` always holds the opcode of the operation in flight; a busy state whose
`OP` names none is reached by no run and acts as the illegal command.) -/
def resume (s : State) : Host.Outcome State Fault Refusal :=
  match instrOfOpcode s.seq.op with
  | some i => exec i s
  | none => .next (s.illegalCommand s.seq.op)

/-- One step. -/
def step (s : State) : Host.Outcome State Fault Refusal :=
  if s.env.rst then .next s.held
  else if s.seq.busy then resume s
  else
    match s.fetch with
    | .nothing => .next s
    | .command w t => command w t
    | .handled t => .next t

/-- `s` with the command word `w` as what the host writes next to an idle ESPB (log 15). -/
def State.withFetchWord (s : State) (nbits w : Nat) : State :=
  s.awaitCommand (BitVec.ofNat 32 (w % 2 ^ nbits))

end Sys2Proof.Machine
end

