-- ==== Sys2Proof/Safety.lean ====
section
/-! DEFINITION. The terms the claims use: what a list of inputs is like, what an operation puts on its ports as the
spec writes it, what must hold of a state between steps. Nothing here is used by the machine. -/

namespace Sys2Proof

/-! ## The units' operations (30_encoding.md R100) -/

/-- PTC's operations. -/
def Instr.isPtc : Instr → Bool
  | .ptInit | .ptReadT | .ptReadP => true
  | _ => false

/-- SWD's operations. -/
def Instr.isSwd : Instr → Bool
  | .swReadT | .swReadH | .swSetCal => true
  | _ => false

/-- FTR's operations. -/
def Instr.isFtr : Instr → Bool
  | .dspInit | .dspClear | .dspShowStr | .dspShowNum => true
  | _ => false

/-- RFC's operations. -/
def Instr.isRfc : Instr → Bool
  | .rfInit | .rfSend | .rfOnRecv => true
  | _ => false

end Sys2Proof

namespace Sys2Proof.Machine

/-! ## Inputs -/

/-- No outside action jumps in before SEQ's next steps. -/
def quiet : List Input → Bool
  | .early _ :: _ => false
  | .pass :: _ => false
  | _ => true

/-- The action gives the reset input a level. -/
def External.isReset : External → Bool
  | .rst _ => true
  | _ => false

/-- The input gives the reset input a level. -/
def Input.isReset : Input → Bool
  | .answer _ => false
  | .ext e => e.isReset
  | .early e => e.isReset
  | .pass => false

/-- The reset input does not move among the inputs. -/
def noReset (l : List Input) : Bool := l.all fun i => !i.isReset

/-- The input is an answer of the environment. -/
def Input.isAnswer : Input → Bool
  | .answer _ => true
  | _ => false

/-- The input is an `RxEvent`. -/
def Input.isRxEvent : Input → Bool
  | .ext (.rxEvent _) => true
  | .early (.rxEvent _) => true
  | _ => false

/-- Answers, and nothing else. -/
def answers (as : List Answer) : List Input := as.map .answer

/-- Acknowledged answers with the given data. -/
def acked (d : List (BitVec 24)) : List Input := d.map fun x => .answer ⟨true, x⟩

/-! ## The frame of an operation -/

/-- ESPB is idle: a new command starts an operation. -/
abbrev State.idle (s : State) : Prop := s.seq.busy = false

/-- `s` with nothing changed but `OP`. -/
def State.withOp (s : State) (opc : Byte) : State := { s with seq := { s.seq with op := opc } }

/-- `s` with nothing changed but `OP`, the inputs left and the events added. -/
def State.after (s : State) (opc : Byte) (rest : List Input) (events : List Event) : State :=
  { s with
    seq := { s.seq with op := opc }
    env := { s.env with inputs := rest, trace := s.env.trace ++ events } }

/-- `RFC` as it was but for the pending bit, which the host and the radio may change at any time. -/
def Rfc.butPending (r : Rfc) (b : Bool) : Rfc := { r with rxpend := b }

/-! ## PTC -/

/-- `CAL[i]` as its 16-bit pattern, in the index order of 10_state.md R27. -/
def CalSet.get (c : CalSet) (i : Nat) : BitVec 16 :=
  match i with
  | 0 => c.ac1
  | 1 => c.ac2
  | 2 => c.ac3
  | 3 => c.ac4
  | 4 => c.ac5
  | 5 => c.ac6
  | 6 => c.b1
  | 7 => c.b2
  | 8 => c.mb
  | 9 => c.mc
  | _ => c.md

/-- The event of calibration read `i` (40_compensator.md R141 steps 3 to 5). -/
def calEvent (c : PtConfig) (a : TwAddr) (i : Nat) (ack : Bool) (x : BitVec 24) : Event :=
  { prim := if i = 3 ∨ i = 4 ∨ i = 5 then .twRead16 a ((c.calReg[i]?).getD 0)
      else .twReadS16 a ((c.calReg[i]?).getD 0)
    ans := ⟨ack, (x.setWidth 16).setWidth 24⟩ }

/-- `X1` of R143 step M4, over the integers. -/
def specX1 (c : CalSet) (ut : Nat) : Int := Int.fdiv ((ut - c.ac6.toNat) * c.ac5.toNat) 32768

/-- `B5` of R143 steps M4 to M6, a zero divisor giving 0 (R149). -/
def specB5 (c : CalSet) (ut : Nat) : Int :=
  let x1 := specX1 c ut
  let x2 := if x1 + c.md.toInt = 0 then 0 else Int.fdiv (c.mc.toInt * 2048) (x1 + c.md.toInt)
  x1 + x2

/-- `B3` of R153 for the oversampling setting 3. -/
def specB3 (c : CalSet) (b5 : Int) : Int :=
  let b6 := b5 - 4000
  let xa := Int.fdiv (c.b2.toInt * Int.fdiv (b6 * b6) 4096) 2048
  let xb := Int.fdiv (c.ac2.toInt * b6) 2048
  Int.fdiv ((c.ac1.toInt * 4 + (xa + xb)) * 8 + 2) 4

/-- `B4` of R153. -/
def specB4 (c : CalSet) (b5 : Int) : Int :=
  let b6 := b5 - 4000
  let xd := Int.fdiv (c.ac3.toInt * b6) 8192
  let xe := Int.fdiv (c.b1.toInt * Int.fdiv (b6 * b6) 4096) 65536
  let xf := Int.fdiv (xd + xe + 2) 4
  Int.fdiv ((c.ac4.toNat * ((xf + 32768) % 4294967296)) % 4294967296) 32768

/-- `pu` of R150 step 8 and R154, a zero divisor giving 0 (R157). -/
def specPu (b7 b4 : Int) : Int :=
  if b4 = 0 then 0
  else if b7 < 2147483648 then Int.fdiv (b7 * 2) b4
  else (Int.fdiv b7 b4 * 2) % 4294967296

/-- The pressure in Pa of R150 steps 6 to 9 with the formulas of R153 and R155. -/
def specPressure (c : CalSet) (b5 : Int) (up : Nat) : Int :=
  let b7 := ((up - specB3 c b5) * 6250) % 4294967296
  let pu := specPu b7 (specB4 c b5)
  let p0 := if pu < 2147483648 then pu else pu - 4294967296
  let xg := Int.fdiv p0 256 * Int.fdiv p0 256
  let xh := Int.fdiv (xg * 3038) 65536
  let xi := Int.fdiv (-7357 * p0) 65536
  p0 + Int.fdiv (xh + xi + 3791) 16

/-- A two-wire byte write with its acknowledge. -/
def writeEvent (a : TwAddr) (reg v : Byte) (ack : Bool) : Event := ⟨.twWrite8 a reg v, ⟨ack, 0⟩⟩

/-- The events of `MeasureT` (R143) with the raw sample `x`. -/
def measureEvents (s : State) (ack : Bool) (x : BitVec 24) : List Event :=
  [writeEvent s.pt.addr s.cfg.pt.regCtrl s.cfg.pt.cmdTemp true, ⟨.delayMs 5, ⟨true, 0⟩⟩,
   ⟨.twRead16 s.pt.addr s.cfg.pt.regData, ⟨ack, (x.setWidth 16).setWidth 24⟩⟩]

/-! ## SWD -/

/-- One bit on the line: how often it is read low before the rise, the sample, how often it is read high before the
fall (41_single_wire.md R197). -/
structure BitWave where
  low  : Nat
  bit  : Bool
  high : Nat
deriving DecidableEq, Repr

/-- The levels `PinRead` returns over the handshake: response low, `low` more lows, a high, `high` more highs, a low. -/
def handshakeLine (low high : Nat) : List Bool :=
  [false] ++ List.replicate low false ++ [true] ++ List.replicate high true ++ [false]

/-- The levels over the bits. -/
def bitsLine (ws : List BitWave) : List Bool :=
  ws.flatMap fun w => List.replicate w.low false ++ [true, w.bit] ++ List.replicate w.high true ++ [false]

/-- The event of reading level `b` from pin `p`. -/
def pinEvent (p : PinId) (b : Bool) : Event := ⟨.pinRead p, ⟨true, (BitVec.ofBool b).setWidth 24⟩⟩

/-- The four events before the response check (R183 S1 to S4). -/
def startEvents (p : PinId) : List Event :=
  [⟨.pinWrite p false, ⟨true, 0⟩⟩, ⟨.delayMs 18, ⟨true, 0⟩⟩, ⟨.pinPull p .up, ⟨true, 0⟩⟩, ⟨.delayUs 40, ⟨true, 0⟩⟩]

/-- The events of the bits: a delay of 28 microseconds between the rise and the sample (R183 S9 to S12). -/
def bitsEvents (p : PinId) (ws : List BitWave) : List Event :=
  ws.flatMap fun w =>
    List.replicate w.low (pinEvent p false) ++ [pinEvent p true, ⟨.delayUs 28, ⟨true, 0⟩⟩, pinEvent p w.bit]
    ++ List.replicate w.high (pinEvent p true) ++ [pinEvent p false]

/-- Forty bits, the first the most significant (R186). -/
def frameOf (ws : List BitWave) : BitVec 40 :=
  BitVec.ofNat 40 (ws.foldl (fun n w => 2 * n + w.bit.toNat) 0)

/-- SWD after a whole frame `f` (R187, R188). -/
def Swd.afterFrame (w : Swd) (f : BitVec 40) : Swd :=
  let hum : Byte := (f >>> 32).setWidth 8
  let temp : Byte := (f >>> 16).setWidth 8
  if (f.setWidth 8 : Byte).toNat = (hum.toNat + temp.toNat) % 256 then
    { w with frame := f, lastH := hum, lastT := temp, haveFrame := true, stat := .accepted }
  else { w with frame := f, stat := .checksumMismatch }

/-- No run reaches the poll bound (R181). -/
def withinBound (bound : Option Nat) (run : Nat) : Prop := ∀ n, bound = some n → run < n

/-- Answers whose levels are `line`. -/
abbrev answersOf (as : List Answer) (line : List Bool) : Prop := as.map (fun a => a.data.getLsbD 0) = line

/-! ## FTR -/

/-- The calls of 42_display.md R214 steps 1 to 16 for a display of height `h` at `a`: the configured list, byte by
byte. -/
def initCalls (c : DspConfig) (a : TwAddr) (h : Byte) : List Prim :=
  c.initList.map fun e => .twWrite8 a c.ctrlCmd (match e.byte with
    | .fixed v => v
    | .heightLessOne => BitVec.ofNat 8 (h.toNat - 1)
    | .ifHeight32 yes no => if h.toNat = 32 then yes else no)

/-- The six window bytes of `Flush` (R222 F1 to F6). -/
def windowBytes (c : DspConfig) (w h : Byte) : List Byte :=
  [c.cColAddr, 0x00, w - 1, c.cPageAddr, 0x00, h / 8 - 1]

/-- The calls of `Flush` (R222) that sends the bytes `pixels` to a display of geometry `w` × `h` at `a`. -/
def flushCalls (c : DspConfig) (a : TwAddr) (w h : Byte) (pixels : List Byte) : List Prim :=
  (windowBytes c w h).map (fun b => Prim.twWrite8 a c.ctrlCmd b) ++ [.twWriteBlock a (c.ctrlData :: pixels)]

/-- Calls that are all acknowledged. -/
def ackedCalls (l : List Prim) : List Event := l.map fun p => ⟨p, ⟨true, 0⟩⟩

/-- The first `n` calls acknowledged, the next one not. -/
def failingCalls (l : List Prim) (n : Nat) : List Event :=
  ackedCalls (l.take n) ++ ((l[n]?).map fun p => (⟨p, ⟨false, 0⟩⟩ : Event)).toList

/-- What `FB[a]` is after a blit of `text` at `start`: a column of a glyph, or what it was (R225 step 5, R228). -/
def afterText (font : List Glyph) (fb : Memory) (start : Nat) (text : List Byte) (a : Nat) : Option Byte :=
  if start ≤ a ∧ (a - start) / 6 < text.length ∧ (a - start) % 6 < 5 then
    (text[(a - start) / 6]?).bind fun c => (font[c.toNat - 32]?).bind fun g => g[(a - start) % 6]?
  else fb.read? a

/-- Every code of the text has a glyph (R227). -/
def drawable (font : List Glyph) (text : List Byte) : Bool :=
  text.all fun c => 32 ≤ c.toNat && c.toNat < 32 + font.length

/-- The value a decimal text stands for (30_encoding.md R116). -/
def decimalValue : List Byte → Int
  | [] => 0
  | c :: cs =>
    if c = 0x2D then -(cs.foldl (fun n d => 10 * n + (d.toNat - 0x30)) 0 : Nat)
    else ((c :: cs).foldl (fun n d => 10 * n + (d.toNat - 0x30)) 0 : Nat)

/-- Every byte is an ASCII digit. -/
def allDigits (l : List Byte) : Bool := l.all fun d => 0x30 ≤ d.toNat && d.toNat ≤ 0x39

/-! ## RFC -/

/-- The two bytes of a register write (30_encoding.md R110). -/
def writePair (r : RfReg) (v : Byte) : List Byte := [0x80 ||| r.setWidth 8, v]

/-- `SpiXfer` events: the bytes sent and, of each answer, the byte returned. -/
def spiEvents (sent : List Byte) (as : List Answer) : List Event :=
  List.zipWith (fun b a => ⟨.spiXfer b, ⟨true, (a.data.setWidth 8).setWidth 24⟩⟩) sent as

/-- The bytes of `RF.INIT` (43_radio.md R255) after its first mode write and before its last delay. -/
def rfInitBytes (c : RfConfig) (frf : BitVec 24) : List Byte :=
  writePair c.regFrfMsb (frf.extractLsb 23 16) ++ writePair c.regFrfMid (frf.extractLsb 15 8)
  ++ writePair c.regFrfLsb (frf.extractLsb 7 0) ++ c.modemWrites.flatMap (fun rv => writePair rv.1 rv.2)
  ++ writePair c.regPaConfig c.paValue ++ c.preambleWrites.flatMap (fun rv => writePair rv.1 rv.2)
  ++ writePair c.regSyncWord c.syncWord ++ writePair c.regOpMode c.modeStdby

/-- The bytes of `RF.SEND` (R260) before its poll. -/
def sendBytes (c : RfConfig) (address len : Byte) (payload : List Byte) : List Byte :=
  writePair c.regOpMode c.modeStdby ++ writePair c.regFifoTxBase address ++ writePair c.regFifoAddrPtr address
  ++ writePair c.regPayloadLen (len + 1) ++ writePair c.regFifo 0x00
  ++ payload.flatMap (fun b => writePair c.regFifo b) ++ writePair c.regOpMode c.modeTx

/-- The bytes of `j` reads of the flag register (R262). -/
def pollBytes (c : RfConfig) (j : Nat) : List Byte :=
  (List.replicate j [c.regIrqFlags.setWidth 8, c.dummy]).flatten

/-- The bytes after a poll that saw the flag (R260 steps 12, 13). -/
def closeBytes (c : RfConfig) : List Byte := writePair c.regIrqFlags 0xFF ++ writePair c.regOpMode c.modeStdby

/-- The transmit-done bit in the `n`-th byte returned (R262 W5). -/
def flagIn (c : RfConfig) (as : List Answer) (n : Nat) : Bool :=
  ((as[n]?).map fun a => a.data.setWidth 8 &&& c.irqTxDone != 0).getD false

/-- The frequency word over the integers (30_encoding.md R111). -/
def specFrequency (f : Nat) : Nat := (f * 1000 / 61035) % 16777216

/-! ## Whole-machine rules -/

/-- `s` and `t` are alike but for the pending bit, the record of host reads and the inputs still to come. -/
def State.alikeButPending (s t : State) : Prop :=
  t.cfg = s.cfg ∧ t.seq = s.seq ∧ t.host = s.host ∧ t.pt = s.pt ∧ t.sw = s.sw ∧ t.dsp = s.dsp ∧
  t.rf = s.rf.butPending t.rf.rxpend ∧ t.env.rst = s.env.rst ∧ t.env.trace = s.env.trace ∧ t.env.freeReads = s.env.freeReads ∧
  t.env.epoch = s.env.epoch

/-- Only an `RxEvent` jumps in before SEQ's next step. -/
def onlyRxEarly (l : List Input) : Bool :=
  l.all fun i => match i with
    | .early (.rxEvent _) => true
    | .early _ => false
    | _ => true

/-- The inputs without the `RxEvent`s, and without the `pass` that says after which step they land. -/
def withoutRxEvents (l : List Input) : List Input := l.filter fun i => !i.isRxEvent && i != .pass

/-- Registers only an operation's end writes: the results are as they were (60_exceptions.md R296). -/
def sameResults (s t : State) : Prop := t.host.ret0 = s.host.ret0 ∧ t.host.ret1 = s.host.ret1

/-- The calls an operation's unit may make: PTC reads and writes the two-wire bus and delays, SWD uses its pin and
delays, FTR only writes the two-wire bus, RFC uses the register bus and delays (R69, R140, R180, R210, R250). A pin
is only ever driven low (70_reset_and_hazards.md R333). -/
def mayCall (i : Instr) (p : Prim) : Bool :=
  match p with
  | .twWrite8 .. => i.isPtc || i.isFtr
  | .twRead8 .. => false
  | .twRead16 .. => i.isPtc
  | .twReadS16 .. => i.isPtc
  | .twRead24 .. => i.isPtc
  | .twWriteBlock .. => i.isFtr
  | .spiXfer _ => i.isRfc
  | .pinWrite _ level => i.isSwd && !level
  | .pinRead _ => i.isSwd
  | .pinPull .. => i.isSwd
  | .delayMs _ => i.isPtc || i.isSwd || i.isRfc
  | .delayUs _ => i.isSwd

/-- The cause matrix (60_exceptions.md R303): `CODE` and `INFO` an operation may end with. -/
def mayEndWith (i : Instr) (code : BitVec 4) (info : Byte) : Bool :=
  let operand (l : List Byte) : Bool := code = 7 && l.contains info
  let ok : Bool := code = 0 && info = 0
  let bus : Bool := code = 1
  let notInit (u : Byte) : Bool := code = 2 && info = u
  let timeout : Bool := code = 3
  let glyph : Bool := code = 5
  match i with
  | .ptInit => ok || bus || operand [0]
  | .ptReadT => ok || bus || notInit 1
  | .ptReadP => ok || bus || notInit 1
  | .swReadT => ok || timeout || operand [0]
  | .swReadH => ok || timeout || operand [0]
  | .swSetCal => ok
  | .dspInit => ok || bus || operand [0, 1, 2]
  | .dspClear => ok || bus || notInit 3
  | .dspShowStr => ok || bus || notInit 3 || glyph || operand [4]
  | .dspShowNum => ok || bus || notInit 3 || glyph || operand [4]
  | .rfInit => ok
  | .rfSend => ok || notInit 4 || timeout || operand [0, 3]
  | .rfOnRecv => ok

/-- How many answers an operation takes at most when every wait loop makes at most `a` pin reads or `b` flag reads. -/
def answersNeeded (i : Instr) (s : State) (a b : Nat) : Nat :=
  match i with
  | .ptInit => 11
  | .ptReadT => 2
  | .ptReadP => 4
  | .swReadT => 1 + 2 * a + 40 * (2 * a + 1)
  | .swReadH => 1 + 2 * a + 40 * (2 * a + 1)
  | .swSetCal => 0
  | .dspInit => s.cfg.dsp.initList.length + 7
  | .dspClear => 7
  | .dspShowStr => 7
  | .dspShowNum => 7
  | .rfInit => 2 * (7 + s.cfg.rf.modemWrites.length + s.cfg.rf.preambleWrites.length)
  | .rfSend => 2 * (8 + s.host.len.toNat + b)
  | .rfOnRecv => 0

/-- The primitive returns something, so that SEQ waits for an answer (00_scope.md R6). -/
def Prim.asks : Prim → Bool
  | .pinWrite .. => false
  | .pinPull .. => false
  | .delayMs _ => false
  | .delayUs _ => false
  | .twWrite8 .. => true
  | .twRead8 .. => true
  | .twRead16 .. => true
  | .twReadS16 .. => true
  | .twRead24 .. => true
  | .twWriteBlock .. => true
  | .spiXfer _ => true
  | .pinRead _ => true

/-- A text of `n` characters at `start` is inside the framebuffer (42_display.md R226). -/
def State.fits (s : State) (start n : Nat) : Bool := n = 0 || start + 6 * (n - 1) + 4 < s.dsp.fbLen.toNat

/-- No guard and no check turns operation `i` away (60_exceptions.md R302): operands in range, the unit initialised,
the text fits and has its glyphs. -/
def State.passesChecks (s : State) (i : Instr) : Bool :=
  let start := s.host.arg0.toNat * s.dsp.width.toNat * 2 + s.host.arg1.toNat * 6
  let number := decimalText s.host.arg2.toInt
  i.wellFormed s.operands &&
  match i with
  | .ptInit => true
  | .ptReadT => s.pt.init
  | .ptReadP => s.pt.init
  | .swReadT => true
  | .swReadH => true
  | .swSetCal => true
  | .dspInit => true
  | .dspClear => s.dsp.init
  | .dspShowStr => s.dsp.init && s.fits start s.host.len.toNat && drawable s.cfg.dsp.font s.text
  | .dspShowNum => s.dsp.init && s.fits start number.length && drawable s.cfg.dsp.font number
  | .rfInit => true
  | .rfSend => s.rf.init
  | .rfOnRecv => true

/-! ## What holds of every state between steps -/

/-- What holds whatever SEQ is at: `BUF` in canonical form, `FB` in order, no temporaries and no driven pin while
idle, `CAUSE[7:4]` zero, `UP` in 16 bits for the shift of 8, no pending bit without enable, an empty cache until a
frame is accepted (10_state.md R22, R24, R28, R33, R41; 70_reset_and_hazards.md R322). -/
abbrev State.Canonical (s : State) : Prop :=
  (s.host.buf.WellFormed 256 ∧ s.dsp.fb.Pairwise (fun c d => c.1 < d.1)) ∧
  (s.seq.busy = false →
    s.seq.phase = 0 ∧ s.seq.acc = 0 ∧ s.seq.polls = 0 ∧ s.seq.midRead = false ∧ s.seq.pinLow = none) ∧
  s.seq.cause.extractLsb' 4 4 = 0 ∧
  (s.cfg.pt.upShift = 8 → s.pt.up.toNat < 2 ^ 16) ∧
  (s.rf.rxpend = true → s.rf.rxie = true) ∧
  (s.sw.haveFrame = false → s.sw.lastT = 0 ∧ s.sw.lastH = 0)

/-- The steps at which an operation can be waiting for an answer (numbers as in log 11). -/
def waitsAt (i : Instr) (s : State) (p : Nat) : Bool :=
  let m := s.cfg.rf.modemWrites.length + s.cfg.rf.preambleWrites.length
  let n := s.host.len.toNat
  let l := s.cfg.dsp.initList.length
  match i with
  | .ptInit => 3 ≤ p && p ≤ 13
  | .ptReadT => p = 2 || p = 4
  | .ptReadP => p = 2 || p = 4 || p = 6 || p = 8
  | .swReadT => (6 ≤ p && p ≤ 8) || (10 ≤ p && p ≤ 169 && (p - 10) % 4 ≠ 1)
  | .swReadH => (6 ≤ p && p ≤ 8) || (10 ≤ p && p ≤ 169 && (p - 10) % 4 ≠ 1)
  | .swSetCal => false
  | .dspInit => (3 ≤ p && p ≤ 2 + l) || (4 + l ≤ p && p ≤ 10 + l)
  | .dspClear => 3 ≤ p && p ≤ 9
  | .dspShowStr => 5 ≤ p && p ≤ 11
  | .dspShowNum => 6 ≤ p && p ≤ 12
  | .rfInit => p = 1 || p = 2 || (5 ≤ p && p ≤ 16 + 2 * m)
  | .rfSend => (3 ≤ p && p ≤ 19 + 2 * n) || p = 21 + 2 * n || p = 22 + 2 * n
  | .rfOnRecv => false

/-- The operation in flight, if any. -/
def State.running (s : State) : Option Instr := if s.seq.busy then instrOfOpcode s.seq.op else none

/-- The operation in flight drives the radio's mode. -/
def State.radioRunning (s : State) : Bool := s.running = some .rfInit || s.running = some .rfSend

/-- Every register is at its reset value (70_reset_and_hazards.md R320). -/
abbrev State.AtReset (s : State) : Prop :=
  s.seq = Seq.reset ∧ s.host = HostRegs.reset ∧ s.pt = Ptc.reset ∧ s.sw = Swd.reset ∧ s.dsp = Ftr.reset ∧
  s.rf = Rfc.reset

/-- The invariant: while the reset input is asserted every register is at its reset value (R321); an operation in flight waits at one of its waiting steps; the geometry is legal and `FB` inside
the memory; `FBLEN` is `DSPW * DSPH / 8`, or 0 before the first `DSP.INIT` (42_display.md R233); `RFMODE` is
`UNKNOWN` or `STANDBY` unless `RF.INIT` or `RF.SEND` is running, and not `UNKNOWN` once initialised (43_radio.md
R270). -/
abbrev State.Inv (s : State) : Prop :=
  s.Canonical ∧
  (s.env.rst = true → s.AtReset) ∧
  (s.seq.busy = true → ((instrOfOpcode s.seq.op).any fun i => waitsAt i s s.seq.phase) = true) ∧
  (1 ≤ s.dsp.width.toNat ∧ s.dsp.width.toNat ≤ 128 ∧
    8 ≤ s.dsp.height.toNat ∧ s.dsp.height.toNat ≤ 64 ∧ s.dsp.height.toNat % 8 = 0) ∧
  s.dsp.fb.WellFormed 1024 ∧
  (s.dsp.fbLen.toNat = s.dsp.width.toNat * s.dsp.height.toNat / 8 ∨
    (s.dsp.fbLen = 0 ∧ s.dsp.init = false ∧ (s.running.any Instr.isFtr) = false)) ∧
  (s.radioRunning = false → s.rf.mode = .unknown ∨ s.rf.mode = .standby) ∧
  (s.rf.init = true → s.rf.mode ≠ .unknown)

end Sys2Proof.Machine
end

