-- ==== Sys2Proof/Certificates/Slice0/Obligations.lean ====
section
/-! DEFINITION. The statements. Throughout, the answers of the environment and every other outside action come from
the list `env.inputs` (00_scope.md R8 takes them from an oracle; that the oracle is a list in the state is the
model's form, logs 1 and 3). `quiet` says that the list does not begin with an action that jumps in before one of
SEQ's next steps. An equation
`exec i s = .next (… .done)` or `… .raise c` is a whole frame: every register, memory byte, flag and event that is
not named in it is as it was in `s`. `done` and `raise` are pinned by `Obligations.DoneAndRaise`. -/

section
open Sys2Proof Sys2Proof.Machine

/-! ## Encoding and the step -/

/-- R100, R101, R105: a word decodes to an operation exactly when it is that operation's command word. -/
def Obligations.DecodeIsExact : Prop :=
  ∀ (w : Word) (i : Instr), decode w = .ok i ↔ w = encode i

/-- R100, R104: the thirteen words of the table, and seven words near them that are no operation. -/
def Obligations.DecodeSampleWords : Prop :=
  decode 0x00000010 = .ok .ptInit ∧ decode 0x00000011 = .ok .ptReadT ∧ decode 0x00000012 = .ok .ptReadP ∧
  decode 0x00000020 = .ok .swReadT ∧ decode 0x00000021 = .ok .swReadH ∧ decode 0x00000022 = .ok .swSetCal ∧
  decode 0x00000030 = .ok .dspInit ∧ decode 0x00000031 = .ok .dspClear ∧ decode 0x00000032 = .ok .dspShowStr ∧
  decode 0x00000033 = .ok .dspShowNum ∧ decode 0x00000040 = .ok .rfInit ∧ decode 0x00000041 = .ok .rfSend ∧
  decode 0x00000042 = .ok .rfOnRecv ∧
  decode 0x00000000 = .error (.noSuchOpcode 0x00) ∧ decode 0x00000013 = .error (.noSuchOpcode 0x13) ∧
  decode 0x00000023 = .error (.noSuchOpcode 0x23) ∧ decode 0x00000034 = .error (.noSuchOpcode 0x34) ∧
  decode 0x00000043 = .error (.noSuchOpcode 0x43) ∧ decode 0x00000110 = .error (.zeroFieldSet 0x10) ∧
  decode 0x80000042 = .error (.zeroFieldSet 0x42)

/-- R104: any other word written to an idle ESPB, in each of the four forms such a write can take, ends at once with
`IllegalCommand(w[7:0])`; nothing but `OP` changes (and what an `RxEvent` in the same step changes, logs 3 and 18),
and no event happens. -/
def Obligations.IllegalCommandRaises : Prop :=
  ∀ (s : State) (w : Word) (rest : List Input),
    w ∉ ([0x10, 0x11, 0x12, 0x20, 0x21, 0x22, 0x30, 0x31, 0x32, 0x33, 0x40, 0x41, 0x42] : List Word) →
    s.idle → s.env.rst = false → quiet rest = true →
    ((s.env.inputs = .ext (.hostWrite 0x000 w) :: rest ∨ s.env.inputs = .early (.hostWrite 0x000 w) :: rest) →
      step s = .next ((s.after (w.setWidth 8) rest []).raise (.illegalCommand (w.setWidth 8)))) ∧
    (∀ num : Word, (s.env.inputs = .ext (.hostWriteRx 0x000 w num) :: rest ∨
        s.env.inputs = .early (.hostWriteRx 0x000 w num) :: rest) →
      step s = .next ((s.rxEvent.after (w.setWidth 8) rest []).raise (.illegalCommand (w.setWidth 8))))

/-- R101: a command word written to an idle ESPB runs the decoded operation, in each of the four forms such a write
can take, and as the host places it (`withFetchWord`; that form is the model's choice, log 15). -/
def Obligations.StepRunsCommand : Prop :=
  ∀ (s : State) (w : Word) (i : Instr), decode w = .ok i →
    (s.idle → s.env.rst = false → ∀ (rest : List Input) (num : Word),
      (s.env.inputs = .ext (.hostWrite 0x000 w) :: rest → step s = exec i (s.withInputs rest)) ∧
      (s.env.inputs = .early (.hostWrite 0x000 w) :: rest → step s = exec i (s.withInputs rest)) ∧
      (s.env.inputs = .ext (.hostWriteRx 0x000 w num) :: rest → step s = exec i (s.withInputs rest).rxEvent) ∧
      (s.env.inputs = .early (.hostWriteRx 0x000 w num) :: rest → step s = exec i (s.withInputs rest).rxEvent)) ∧
    step (s.withFetchWord 32 w.toNat) =
      exec i { s with
        seq := { s.seq with busy := false, phase := 0, acc := 0, polls := 0, midRead := false }
        env := { s.env with rst := false } }

/-- R24, R307: while the reset input is not asserted, an operation in flight goes on; an idle ESPB acts on one outside action that is no command, drops an
answer nobody waits for (the model's choice, log 13), and does nothing when nothing comes. -/
def Obligations.StepOtherwise : Prop :=
  ∀ s : State, s.env.rst = false →
    (s.seq.busy = true → ∀ i, instrOfOpcode s.seq.op = some i → step s = exec i s) ∧
    (s.idle →
      (s.env.inputs = [] → step s = .next s) ∧
      (∀ (a : Answer) (rest : List Input), (s.env.inputs = .answer a :: rest ∨ s.env.inputs = .pass :: rest) →
        step s = .next (s.withInputs rest)) ∧
      (∀ (e : External) (rest : List Input),
        (∀ w, e ≠ .hostWrite 0x000 w) → (∀ w n, e ≠ .hostWriteRx 0x000 w n) →
        (s.env.inputs = .ext e :: rest ∨ s.env.inputs = .early e :: rest) →
        step s = .next ((s.withInputs rest).external e)))

/-- R298: no step stops the machine. -/
def Obligations.StepNeverStops : Prop := ∀ s : State, ∃ t : State, step s = .next t

/-! ## Ending an operation -/

/-- R296, R297: what `raise` and `done` write. -/
def Obligations.DoneAndRaise : Prop :=
  ∀ (s : State) (c : Cause) (k : Byte),
    (s.raise c).seq.cause = c.info ++ 0#4 ++ c.code ∧ (s.done).seq.cause = 0 ∧
    (Cause.busError k).code = 1 ∧ (Cause.notInitialized k).code = 2 ∧ (Cause.timeout k).code = 3 ∧
    (Cause.unsupportedGlyph k).code = 5 ∧ (Cause.illegalCommand k).code = 6 ∧ (Cause.illegalOperand k).code = 7 ∧
    (Cause.busError k).info = k ∧ (Cause.notInitialized k).info = k ∧ (Cause.timeout k).info = k ∧
    (Cause.unsupportedGlyph k).info = k ∧ (Cause.illegalCommand k).info = k ∧ (Cause.illegalOperand k).info = k ∧
    (∀ w : BitVec 16, s.endWith w =
      { s with seq := { s.seq with
          busy := false, phase := 0, cause := w, acc := 0, polls := 0, midRead := false, pinLow := none } }) ∧
    s.raise c = s.endWith (s.raise c).seq.cause ∧ s.done = s.endWith 0

/-! ## The host port -/

/-- R42, R46: the window of an idle ESPB shows signed registers sign-extended and unsigned ones zero-extended, the
bytes of `BUF`, the bytes of `FB` below `FBLEN` and 0 above, and 0 at `CMD` and every reserved index; R39: the codes
of `RFMODE`. -/
def Obligations.HostWindow : Prop :=
  ∀ s : State,
    (s.hostValue 0x010).toInt = s.pt.cal.ac1.toInt ∧ (s.hostValue 0x011).toInt = s.pt.cal.ac2.toInt ∧
    (s.hostValue 0x012).toInt = s.pt.cal.ac3.toInt ∧ (s.hostValue 0x013).toNat = s.pt.cal.ac4.toNat ∧
    (s.hostValue 0x014).toNat = s.pt.cal.ac5.toNat ∧ (s.hostValue 0x015).toNat = s.pt.cal.ac6.toNat ∧
    (s.hostValue 0x016).toInt = s.pt.cal.b1.toInt ∧ (s.hostValue 0x017).toInt = s.pt.cal.b2.toInt ∧
    (s.hostValue 0x018).toInt = s.pt.cal.mb.toInt ∧ (s.hostValue 0x019).toInt = s.pt.cal.mc.toInt ∧
    (s.hostValue 0x01A).toInt = s.pt.cal.md.toInt ∧
    (s.hostValue 0x002).toNat = s.seq.cause.toNat ∧ s.hostValue 0x003 = s.host.ret0 ∧
    s.hostValue 0x004 = s.host.ret1 ∧ s.hostValue 0x005 = s.host.arg0 ∧ s.hostValue 0x006 = s.host.arg1 ∧
    s.hostValue 0x007 = s.host.arg2 ∧ (s.hostValue 0x008).toNat = s.host.len.toNat ∧
    (s.hostValue 0x01B).toNat = s.pt.ut.toNat ∧ (s.hostValue 0x01C).toNat = s.pt.up.toNat ∧
    s.hostValue 0x01D = s.pt.b5 ∧ (s.hostValue 0x01E).toNat = s.pt.addr.toNat ∧
    (s.hostValue 0x020).toNat + 2 ^ 32 * (s.hostValue 0x021).toNat = s.sw.frame.toNat ∧
    (s.hostValue 0x022).toNat = s.sw.lastT.toNat ∧ (s.hostValue 0x023).toNat = s.sw.lastH.toNat ∧
    s.hostValue 0x024 = s.sw.calOff ∧ (s.hostValue 0x028).toNat = s.dsp.width.toNat ∧
    (s.hostValue 0x029).toNat = s.dsp.height.toNat ∧ (s.hostValue 0x02A).toNat = s.dsp.addr.toNat ∧
    (s.hostValue 0x02B).toNat = s.dsp.fbLen.toNat ∧ (s.hostValue 0x030).toNat = s.rf.frf.toNat ∧
    (s.hostValue 0x031).toNat = s.rf.mode.code.toNat ∧
    RfMode.unknown.code = 0 ∧ RfMode.sleep.code = 1 ∧ RfMode.standby.code = 2 ∧ RfMode.transmit.code = 3 ∧
    (∀ k : Nat, k < 256 → (s.hostValue (BitVec.ofNat 11 (0x100 + k))).toNat = (s.bufByte k).toNat) ∧
    (∀ k : Nat, k < 1024 →
      (s.hostValue (BitVec.ofNat 11 (0x400 + k))).toNat =
        if k < s.dsp.fbLen.toNat then (s.fbByte k).toNat else 0) ∧
    (∀ n : Nat, (n = 0x000 ∨ (0x009 ≤ n ∧ n ≤ 0x00F) ∨ n = 0x01F ∨ (0x025 ≤ n ∧ n ≤ 0x027) ∨
        (0x02C ≤ n ∧ n ≤ 0x02F) ∨ (0x032 ≤ n ∧ n ≤ 0x0FF) ∨ (0x200 ≤ n ∧ n ≤ 0x3FF)) →
      s.hostValue (BitVec.ofNat 11 n) = 0)

/-- R43: the fields of `STATUS`, their values after reset, and the two write-1-to-clear bits, idle and busy; R32: the
codes of `SWSTAT`. -/
def Obligations.StatusRegister : Prop :=
  ∀ (s : State) (v : Word),
    (s.hostValue 0x001).getLsbD 0 = s.seq.busy ∧ (s.hostValue 0x001).getLsbD 1 = s.pt.init ∧
    (s.hostValue 0x001).getLsbD 2 = s.sw.haveFrame ∧ (s.hostValue 0x001).getLsbD 3 = s.dsp.init ∧
    (s.hostValue 0x001).getLsbD 4 = s.rf.init ∧ (s.hostValue 0x001).getLsbD 5 = s.rf.rxie ∧
    (s.hostValue 0x001).getLsbD 6 = s.rf.rxpend ∧ (s.hostValue 0x001).getLsbD 7 = s.seq.ovr ∧
    (s.hostValue 0x001).extractLsb 10 8 = s.sw.stat.code ∧
    SwStat.none.code = 0 ∧ SwStat.accepted.code = 1 ∧ SwStat.noResponse.code = 2 ∧
    SwStat.checksumMismatch.code = 3 ∧ SwStat.timeout.code = 4 ∧ (s.hostValue 0x001).extractLsb 31 11 = 0 ∧
    State.reset.hostValue 0x001 = 0 ∧
    (s.idle → s.external (.hostWrite 0x001 v) =
      { s with
        rf := { s.rf with rxpend := if v.getLsbD 6 then false else s.rf.rxpend }
        seq := { s.seq with ovr := if v.getLsbD 7 then false else s.seq.ovr } }) ∧
    (s.seq.busy = true → s.external (.hostWrite 0x001 v) =
      { s with rf := { s.rf with rxpend := if v.getLsbD 6 then false else s.rf.rxpend } })

/-- R63, R64: a read changes no register; idle it returns the register's value, busy it returns the value of
`STATUS` and of any other index an unspecified word, the next unspecified read another one. -/
def Obligations.HostReads : Prop :=
  ∀ (s : State) (i : HostIndex),
    ((s.idle ∨ i = 0x001) →
      s.external (.hostRead i) =
        { s with env := { s.env with hostReads := s.env.hostReads ++ [⟨i, s.hostValue i⟩] } }) ∧
    (s.seq.busy = true → i ≠ 0x001 →
      s.external (.hostRead i) =
        { s with env := { s.env with
            hostReads := s.env.hostReads ++ [⟨i, Config.busyRead s.env.freeReads⟩]
            freeReads := s.env.freeReads + 1 } })

/-- R66: what a host write does while an operation is in flight. -/
def Obligations.BusyWritesDropped : Prop :=
  ∀ (s : State) (i : HostIndex) (v : Word), s.seq.busy = true →
    ((i.toNat = 0x000 ∨ i.toNat = 0x005 ∨ i.toNat = 0x006 ∨ i.toNat = 0x007 ∨ i.toNat = 0x008 ∨
        (0x100 ≤ i.toNat ∧ i.toNat ≤ 0x1FF)) →
      s.external (.hostWrite i v) = { s with seq := { s.seq with ovr := true } }) ∧
    (i = 0x001 →
      s.external (.hostWrite i v) =
        { s with rf := { s.rf with rxpend := if v.getLsbD 6 then false else s.rf.rxpend } }) ∧
    (((0x002 ≤ i.toNat ∧ i.toNat ≤ 0x004) ∨ (0x009 ≤ i.toNat ∧ i.toNat ≤ 0x0FF) ∨ 0x200 ≤ i.toNat) →
      s.external (.hostWrite i v) = s)

/-- R42, R63: what a host write does while ESPB is idle: an operand register or one byte of `BUF` and nothing else;
a write to any read-only or reserved index nothing at all. -/
def Obligations.IdleWrites : Prop :=
  ∀ (s : State) (v : Word), s.idle →
    s.external (.hostWrite 0x005 v) = { s with host := { s.host with arg0 := v } } ∧
    s.external (.hostWrite 0x006 v) = { s with host := { s.host with arg1 := v } } ∧
    s.external (.hostWrite 0x007 v) = { s with host := { s.host with arg2 := v } } ∧
    s.external (.hostWrite 0x008 v) = { s with host := { s.host with len := v.setWidth 8 } } ∧
    (∀ k : Nat, k < 256 → ∃ m : Memory,
      s.external (.hostWrite (BitVec.ofNat 11 (0x100 + k)) v) = { s with host := { s.host with buf := m } } ∧
      ∀ a : Nat, m.read? a = if a = k then some (v.setWidth 8) else s.host.buf.read? a) ∧
    (∀ i : HostIndex, ((0x002 ≤ i.toNat ∧ i.toNat ≤ 0x004) ∨ (0x009 ≤ i.toNat ∧ i.toNat ≤ 0x0FF) ∨
        0x200 ≤ i.toNat) → s.external (.hostWrite i v) = s)

/-! ## The receive event -/

/-- R300: an `RxEvent` sets the pending bit if enabled and is lost if not, whatever else is going on and whatever
packet number it carries; the interrupt output is the level of enabled and pending. -/
def Obligations.ReceiveEvent : Prop :=
  ∀ (s : State) (num : Word),
    (s.rf.rxie = true → s.external (.rxEvent num) = { s with rf := { s.rf with rxpend := true } }) ∧
    (s.rf.rxie = false → s.external (.rxEvent num) = s) ∧
    (s.irqRx = true ↔ s.rf.rxie = true ∧ s.rf.rxpend = true)

/-- R301: an acknowledging write lowers the interrupt in its own step, idle or busy, but an `RxEvent` in the same
step wins. -/
def Obligations.AcknowledgeReceive : Prop :=
  ∀ (s : State) (v num : Word), v.getLsbD 6 = true →
    (s.external (.hostWrite 0x001 v)).irqRx = false ∧
    (s.rf.rxie = true → (s.external (.hostWriteRx 0x001 v num)).irqRx = true) ∧
    (s.rf.rxie = false → (s.external (.hostWriteRx 0x001 v num)).rf.rxpend = false)

/-! ## Reset -/

/-- R320: the reset values. `BUF` and `FB` are unspecified: no value is listed, and a read gives a free one (log 8);
the window of `FB` reads 0. -/
def Obligations.ResetValues : Prop :=
  State.reset.seq.busy = false ∧ State.reset.seq.op = 0 ∧ State.reset.seq.phase = 0 ∧
  State.reset.seq.cause = 0 ∧ State.reset.seq.ovr = false ∧
  State.reset.host.arg0 = 0 ∧ State.reset.host.arg1 = 0 ∧ State.reset.host.arg2 = 0 ∧ State.reset.host.len = 0 ∧
  State.reset.host.ret0 = 0 ∧ State.reset.host.ret1 = 0 ∧
  (∀ k, State.reset.host.buf.read? k = none) ∧
  State.reset.pt.init = false ∧ State.reset.pt.addr = 0x77 ∧ (∀ k, State.reset.pt.cal.get k = 0) ∧
  State.reset.pt.ut = 0 ∧ State.reset.pt.up = 0 ∧ State.reset.pt.b5 = 0 ∧
  State.reset.sw.frame = 0 ∧ State.reset.sw.lastT = 0 ∧ State.reset.sw.lastH = 0 ∧
  State.reset.sw.haveFrame = false ∧ State.reset.sw.stat = .none ∧ State.reset.sw.calOff = 0 ∧
  State.reset.dsp.init = false ∧ State.reset.dsp.width = 128 ∧ State.reset.dsp.height = 64 ∧
  State.reset.dsp.addr = 0x3C ∧ State.reset.dsp.fbLen = 0 ∧ (∀ k, State.reset.dsp.fb.read? k = none) ∧
  (∀ k : Nat, k < 1024 → State.reset.hostValue (BitVec.ofNat 11 (0x400 + k)) = 0) ∧
  State.reset.rf.init = false ∧ State.reset.rf.mode = .unknown ∧ State.reset.rf.frf = 0 ∧
  State.reset.rf.rxie = false ∧ State.reset.rf.rxpend = false ∧ State.reset.irqRx = false

/-- R321, R322: asserting the reset input, idle or at a waiting step of any operation, puts every register at its
reset value and causes no event; the configuration, the record of the outside and the inputs still to come stay
(log 16). -/
def Obligations.ResetInput : Prop :=
  ∀ (s : State) (rest : List Input), s.Inv → s.env.rst = false →
    (s.env.inputs = .ext (.rst true) :: rest ∨ s.env.inputs = .early (.rst true) :: rest) →
    step s = .next { State.reset with
      cfg := s.cfg, env := { s.env with rst := true, inputs := rest, epoch := s.env.epoch + 1 } }

/-! ## PTC -/

/-- R141: `PT.INIT` checks its operand, takes the address, reads the eleven coefficients in order and stores each;
at the first read that is not acknowledged it ends with `BusError` of that index, uninitialised. -/
def Obligations.PtInit : Prop :=
  ∀ s : State, s.idle →
    (0x7F < s.host.arg0.toNat → quiet s.env.inputs = true →
      exec .ptInit s = .next ((s.withOp 0x10).raise (.illegalOperand 0))) ∧
    (s.host.arg0.toNat ≤ 0x7F → ∀ (d : List (BitVec 24)) (rest : List Input),
      (d.length = 11 → s.env.inputs = acked d ++ rest → quiet rest = true →
        ∃ c : CalSet, (∀ i, i < 11 → c.get i = (d.getD i 0).setWidth 16) ∧
          exec .ptInit s = .next ({ s.after 0x10 rest
              ((List.range 11).map fun i => calEvent s.cfg.pt (s.host.arg0.setWidth 7) i true (d.getD i 0)) with
            pt := { s.pt with init := true, addr := s.host.arg0.setWidth 7, cal := c } }.done)) ∧
      (∀ x : BitVec 24, d.length < 11 → s.env.inputs = acked d ++ .answer ⟨false, x⟩ :: rest →
        ∃ c : CalSet, (∀ i, i < 11 → c.get i = if i < d.length then (d.getD i 0).setWidth 16 else s.pt.cal.get i) ∧
          exec .ptInit s = .next ({ s.after 0x10 rest
              ((List.range (d.length + 1)).map fun i =>
                calEvent s.cfg.pt (s.host.arg0.setWidth 7) i (decide (i < d.length)) (d.getD i x)) with
            pt := { s.pt with init := false, addr := s.host.arg0.setWidth 7, cal := c } }.raise
              (.busError (BitVec.ofNat 8 d.length)))))

/-- R143, R144: `PT.READT`, with `DIV0` = 0: the guard, the two failing accesses, and the result. -/
def Obligations.PtReadTemperature : Prop :=
  ∀ s : State, s.idle →
    (s.pt.init = false → quiet s.env.inputs = true →
      exec .ptReadT s = .next ((s.withOp 0x11).raise (.notInitialized 1))) ∧
    (s.pt.init = true → ∀ (x y : BitVec 24) (rest : List Input),
      (s.env.inputs = .answer ⟨false, y⟩ :: rest →
        exec .ptReadT s = .next ((s.after 0x11 rest
          [writeEvent s.pt.addr s.cfg.pt.regCtrl s.cfg.pt.cmdTemp false]).raise (.busError 11))) ∧
      (s.env.inputs = .answer ⟨true, y⟩ :: .answer ⟨false, x⟩ :: rest →
        exec .ptReadT s = .next ((s.after 0x11 rest (measureEvents s false x)).raise (.busError 12))) ∧
      (s.cfg.pt.div0 = 0 → quiet rest = true →
        s.env.inputs = .answer ⟨true, y⟩ :: .answer ⟨true, x⟩ :: rest →
        exec .ptReadT s = .next ({ s.after 0x11 rest (measureEvents s true x) with
          pt := { s.pt with
            ut := x.setWidth 16, b5 := BitVec.ofInt 32 (specB5 s.pt.cal (x.setWidth 16 : BitVec 16).toNat) }
          host := { s.host with
            ret0 := BitVec.ofInt 32 (Int.fdiv (specB5 s.pt.cal (x.setWidth 16 : BitVec 16).toNat + 8) 16)
            ret1 := BitVec.ofInt 32 (specB5 s.pt.cal (x.setWidth 16 : BitVec 16).toNat) } }.done)))

/-- R147, R146: the ranges of the first stage, that its two results fit their 32-bit registers, and that `X2` reaches
its bound for divisors 1 and −1. -/
def Obligations.FirstStageRanges : Prop :=
  (∃ c : CalSet, specX1 c 0 + c.md.toInt = 1 ∧ specB5 c 0 - specX1 c 0 = -67108864) ∧
  (∃ c : CalSet, specX1 c 0 + c.md.toInt = -1 ∧ specB5 c 0 - specX1 c 0 = 67108864) ∧
  ∀ (c : CalSet) (ut : Nat), ut ≤ 65535 →
    (-65535 ≤ (ut : Int) - c.ac6.toNat ∧ (ut : Int) - c.ac6.toNat ≤ 65535) ∧
    (-4294836225 ≤ ((ut : Int) - c.ac6.toNat) * c.ac5.toNat ∧
      ((ut : Int) - c.ac6.toNat) * c.ac5.toNat ≤ 4294836225) ∧
    (-131069 ≤ specX1 c ut ∧ specX1 c ut ≤ 131068) ∧
    (-67108864 ≤ c.mc.toInt * 2048 ∧ c.mc.toInt * 2048 ≤ 67108864 - 2048) ∧
    (-163837 ≤ specX1 c ut + c.md.toInt ∧ specX1 c ut + c.md.toInt ≤ 163835) ∧
    (-67108864 ≤ specB5 c ut - specX1 c ut ∧ specB5 c ut - specX1 c ut ≤ 67108864) ∧
    (-(67108864 + 131069) ≤ specB5 c ut ∧ specB5 c ut ≤ 67108864 + 131069) ∧
    (-4202496 ≤ Int.fdiv (specB5 c ut + 8) 16 ∧ Int.fdiv (specB5 c ut + 8) 16 ≤ 4202496) ∧
    (BitVec.ofInt 32 (specB5 c ut)).toInt = specB5 c ut ∧
    (BitVec.ofInt 32 (Int.fdiv (specB5 c ut + 8) 16)).toInt = Int.fdiv (specB5 c ut + 8) 16

/-- R150: `PT.READP` of any instance: the guard, the four failing accesses (the last two with the temperature
already measured), and completion with the configuration's second stage (R152). -/
def Obligations.PtReadPressure : Prop :=
  ∀ s : State, s.idle →
    (s.pt.init = false → quiet s.env.inputs = true →
      exec .ptReadP s = .next ((s.withOp 0x12).raise (.notInitialized 1))) ∧
    (s.pt.init = true → ∀ (x y z r : BitVec 24) (rest : List Input),
      (s.env.inputs = .answer ⟨false, y⟩ :: rest →
        exec .ptReadP s = .next ((s.after 0x12 rest
          [writeEvent s.pt.addr s.cfg.pt.regCtrl s.cfg.pt.cmdTemp false]).raise (.busError 11))) ∧
      (s.env.inputs = .answer ⟨true, y⟩ :: .answer ⟨false, x⟩ :: rest →
        exec .ptReadP s = .next ((s.after 0x12 rest (measureEvents s false x)).raise (.busError 12))) ∧
      (∃ b5 : Word, b5 = BitVec.ofInt 32 (compB5 s.cfg.pt.div0 s.pt.cal.coefs (x.setWidth 16)) ∧
        (s.env.inputs = .answer ⟨true, y⟩ :: .answer ⟨true, x⟩ :: .answer ⟨false, z⟩ :: rest →
          exec .ptReadP s = .next ({ s.after 0x12 rest
              (measureEvents s true x ++ [writeEvent s.pt.addr s.cfg.pt.regCtrl s.cfg.pt.cmdPres false]) with
            pt := { s.pt with ut := x.setWidth 16, b5 := b5 } }.raise (.busError 13))) ∧
        (s.env.inputs = .answer ⟨true, y⟩ :: .answer ⟨true, x⟩ :: .answer ⟨true, z⟩ :: .answer ⟨false, r⟩ :: rest →
          exec .ptReadP s = .next ({ s.after 0x12 rest
              (measureEvents s true x ++ [writeEvent s.pt.addr s.cfg.pt.regCtrl s.cfg.pt.cmdPres true,
                ⟨.delayMs 26, ⟨true, 0⟩⟩, ⟨.twRead24 s.pt.addr s.cfg.pt.regData, ⟨false, r⟩⟩]) with
            pt := { s.pt with ut := x.setWidth 16, b5 := b5 } }.raise (.busError 14))) ∧
        (s.env.inputs = .answer ⟨true, y⟩ :: .answer ⟨true, x⟩ :: .answer ⟨true, z⟩ :: .answer ⟨true, r⟩ :: rest →
          quiet rest = true →
          exec .ptReadP s = .next ({ s.after 0x12 rest
              (measureEvents s true x ++ [writeEvent s.pt.addr s.cfg.pt.regCtrl s.cfg.pt.cmdPres true,
                ⟨.delayMs 26, ⟨true, 0⟩⟩, ⟨.twRead24 s.pt.addr s.cfg.pt.regData, ⟨true, r⟩⟩]) with
            pt := { s.pt with
              ut := x.setWidth 16, b5 := b5, up := (r >>> s.cfg.pt.upShift).setWidth 19 }
            host := { s.host with
              ret0 := BitVec.ofInt 32 (compP10 s.cfg.pt (compPressure s.cfg.pt s.pt.cal.coefs b5
                ((r >>> s.cfg.pt.upShift).setWidth 19)))
              ret1 := BitVec.ofInt 32 (compPressure s.cfg.pt s.pt.cal.coefs b5
                ((r >>> s.cfg.pt.upShift).setWidth 19)) } }.done))))

/-- R150 steps 6 to 10 with R153 to R157, for an instance with the data sheet's second stage, oversampling 3,
`DIV0` = 0 and rounding half up (the spec's choices; the formula is PRESUMED, log 10): the numbers `PT.READP` returns
are the spec's formula over the integers, and a zero `B4` gives 236 Pa and 24. -/
def Obligations.PressureFormula : Prop :=
  ∀ (c : PtConfig) (k : CalSet) (ut : Nat) (up : BitVec 19), ut ≤ 65535 →
    c.stage2 = .dataSheet → c.oss = 3 → c.div0 = 0 → c.round = .halfUp →
    compPressure c k.coefs (BitVec.ofInt 32 (specB5 k ut)) up = specPressure k (specB5 k ut) up.toNat ∧
    (∀ p : Int, compP10 c p = Int.fdiv (p + 5) 10) ∧
    (specB4 k (specB5 k ut) = 0 →
      compPressure c k.coefs (BitVec.ofInt 32 (specB5 k ut)) up = 236 ∧ compP10 c 236 = 24)

/-- R154: which of doubling and dividing comes first, by the bit 31 of `B7`; both unsigned, both 0 for `B4` = 0. -/
def Obligations.PressureBranch : Prop :=
  ∀ b7 b4 : Word,
    (b7.toNat < 2 ^ 31 → (compPu 0 b7 b4).toNat = b7.toNat * 2 / b4.toNat) ∧
    (2 ^ 31 ≤ b7.toNat → (compPu 0 b7 b4).toNat = b7.toNat / b4.toNat * 2 % 2 ^ 32)

/-- R148: the results of a completed reading are functions of the 16 bits of `UT`, of `UP` and of the calibration (and
of the configuration); nothing else of the two states or of the answers need agree. -/
def Obligations.ReadingsArePure : Prop :=
  ∀ (s t s' t' : State) (y x z r y' x' z' r' : BitVec 24) (rest rest' : List Input),
    s.idle → t.idle → s.pt.init = true → t.pt.init = true → s.cfg.pt = t.cfg.pt → s.pt.cal = t.pt.cal →
    (x.setWidth 16 : BitVec 16) = x'.setWidth 16 → quiet rest = true → quiet rest' = true →
    (s.env.inputs = acked [y, x] ++ rest → t.env.inputs = acked [y', x'] ++ rest' →
      exec .ptReadT s = .next s' → exec .ptReadT t = .next t' →
      s'.host.ret0 = t'.host.ret0 ∧ s'.host.ret1 = t'.host.ret1) ∧
    (r >>> s.cfg.pt.upShift = r' >>> s.cfg.pt.upShift →
      s.env.inputs = acked [y, x, z, r] ++ rest → t.env.inputs = acked [y', x', z', r'] ++ rest' →
      exec .ptReadP s = .next s' → exec .ptReadP t = .next t' →
      s'.host.ret0 = t'.host.ret0 ∧ s'.host.ret1 = t'.host.ret1)

/-! ## SWD -/

/-- R183, R190, R191, R197: a single-wire read of a line whose runs stay within the bound decodes the forty sampled
bits, most significant first; an accepted frame replaces the cache, a rejected one does not; the getter returns the
cache after the read. -/
def Obligations.SingleWireRead : Prop :=
  ∀ (s : State) (as : List Answer) (low high : Nat) (ws : List BitWave) (rest : List Input),
    s.idle → s.host.arg0.toNat ≤ 255 → ws.length = 40 →
    answersOf as (handshakeLine low high ++ bitsLine ws) → s.env.inputs = answers as ++ rest → quiet rest = true →
    withinBound s.cfg.swPollMax low → withinBound s.cfg.swPollMax high →
    (∀ w ∈ ws, withinBound s.cfg.swPollMax w.low ∧ withinBound s.cfg.swPollMax w.high) →
    (exec .swReadT s = .next ({ s.after 0x20 rest (startEvents (s.host.arg0.setWidth 8)
          ++ (handshakeLine low high).map (pinEvent (s.host.arg0.setWidth 8))
          ++ bitsEvents (s.host.arg0.setWidth 8) ws) with
        sw := s.sw.afterFrame (frameOf ws)
        host := { s.host with
          ret0 := (s.sw.afterFrame (frameOf ws)).lastT.setWidth 32 + s.sw.calOff } }.done)) ∧
    (exec .swReadH s = .next ({ s.after 0x21 rest (startEvents (s.host.arg0.setWidth 8)
          ++ (handshakeLine low high).map (pinEvent (s.host.arg0.setWidth 8))
          ++ bitsEvents (s.host.arg0.setWidth 8) ws) with
        sw := s.sw.afterFrame (frameOf ws)
        host := { s.host with ret0 := (s.sw.afterFrame (frameOf ws)).lastH.setWidth 32 } }.done))

/-- R184: when the line is high at the response check the read is over, the cache stays, the status says
`NO_RESPONSE`, and the operation completes with the cached value. -/
def Obligations.SingleWireNoResponse : Prop :=
  ∀ (s : State) (a : Answer) (rest : List Input), s.idle → s.host.arg0.toNat ≤ 255 →
    a.data.getLsbD 0 = true → s.env.inputs = .answer a :: rest → quiet rest = true →
    (exec .swReadT s = .next ({ s.after 0x20 rest
          (startEvents (s.host.arg0.setWidth 8) ++ [pinEvent (s.host.arg0.setWidth 8) true]) with
        sw := { s.sw with stat := .noResponse }
        host := { s.host with ret0 := s.sw.lastT.setWidth 32 + s.sw.calOff } }.done)) ∧
    (exec .swReadH s = .next ({ s.after 0x21 rest
          (startEvents (s.host.arg0.setWidth 8) ++ [pinEvent (s.host.arg0.setWidth 8) true]) with
        sw := { s.sw with stat := .noResponse }
        host := { s.host with ret0 := s.sw.lastH.setWidth 32 } }.done))

/-- R189: a wait loop that makes its last allowed read without seeing the level it waits for ends the operation with
`Timeout` of that loop, and nothing of SWD but its status changes: the two handshake loops, and the two loops of bit
`ws.length` (before the second of which the line was read low `k` times). -/
def Obligations.SingleWireTimeout : Prop :=
  ∀ (s : State) (as : List Answer) (low high k n : Nat) (ws : List BitWave) (b : Bool) (rest : List Input) (i : Instr)
    (line : List Bool) (events : List Event) (id : Byte),
    s.idle → s.host.arg0.toNat ≤ 255 → s.cfg.swPollMax = some n → 1 ≤ n → low < n → high < n → k < n →
    (∀ w ∈ ws, w.low < n ∧ w.high < n) → ws.length < 40 → (i = .swReadT ∨ i = .swReadH) →
    ((line = false :: List.replicate n false ∧ id = 0x06 ∧
        events = line.map (pinEvent (s.host.arg0.setWidth 8))) ∨
      (line = false :: List.replicate low false ++ true :: List.replicate n true ∧ id = 0x07 ∧
        events = line.map (pinEvent (s.host.arg0.setWidth 8))) ∨
      (line = handshakeLine low high ++ bitsLine ws ++ List.replicate n false ∧
        id = BitVec.ofNat 8 (0x40 + ws.length) ∧
        events = (handshakeLine low high).map (pinEvent (s.host.arg0.setWidth 8))
          ++ bitsEvents (s.host.arg0.setWidth 8) ws
          ++ List.replicate n (pinEvent (s.host.arg0.setWidth 8) false)) ∨
      (line = handshakeLine low high ++ bitsLine ws ++ List.replicate k false ++ [true, b] ++
          List.replicate n true ∧
        id = BitVec.ofNat 8 (0x80 + ws.length) ∧
        events = (handshakeLine low high).map (pinEvent (s.host.arg0.setWidth 8))
          ++ bitsEvents (s.host.arg0.setWidth 8) ws
          ++ List.replicate k (pinEvent (s.host.arg0.setWidth 8) false)
          ++ [pinEvent (s.host.arg0.setWidth 8) true, ⟨.delayUs 28, ⟨true, 0⟩⟩,
              pinEvent (s.host.arg0.setWidth 8) b]
          ++ List.replicate n (pinEvent (s.host.arg0.setWidth 8) true))) →
    answersOf as line → s.env.inputs = answers as ++ rest →
    exec i s = .next ({ s.after (opcodeOf i) rest (startEvents (s.host.arg0.setWidth 8) ++ events) with
      sw := { s.sw with stat := .timeout } }.raise (.timeout id))

/-- R192: `SW.SETCAL` stores the offset, whatever it is, and does nothing else. -/
def Obligations.SetCalibration : Prop :=
  ∀ s : State, s.idle → quiet s.env.inputs = true →
    exec .swSetCal s = .next ({ s.withOp 0x22 with sw := { s.sw with calOff := s.host.arg0 } }.done)

/-! ## FTR -/

/-- R215: `DSP.INIT` checks its operands in order, takes the geometry, sends the bytes of the configured list of R214
(whatever list it is; the general-knowledge list is 25 bytes) and the flush of a cleared framebuffer; at the first
byte that is not acknowledged it ends uninitialised with `BusError` of that byte. -/
def Obligations.DspInit : Prop :=
  ∀ (s : State) (w h : Byte) (a : TwAddr) (m n : Nat) (calls : List Prim), s.idle → m = s.cfg.dsp.initList.length →
    w = s.host.arg0.setWidth 8 → h = s.host.arg1.setWidth 8 → a = s.host.arg2.setWidth 7 →
    n = w.toNat * h.toNat / 8 →
    calls = initCalls s.cfg.dsp a h ++ flushCalls s.cfg.dsp a w h (List.replicate n 0) →
    (s.cfg.dsp.initList = Config.chipInitBytes.table → calls.length = 32) ∧
    (s.operands.displayOk = false → quiet s.env.inputs = true →
      exec .dspInit s = .next ((s.withOp 0x30).raise (.illegalOperand
        (if s.host.arg0.toNat < 1 ∨ 128 < s.host.arg0.toNat then 0
          else if s.host.arg1.toNat < 8 ∨ 64 < s.host.arg1.toNat ∨ s.host.arg1.toNat % 8 ≠ 0 then 1
          else 2)))) ∧
    (s.operands.displayOk = true → ∀ (d : List (BitVec 24)) (rest : List Input),
      (d.length = m + 7 → s.env.inputs = acked d ++ rest → quiet rest = true →
        ∃ fb : Memory, (∀ k, fb.read? k = if k < n then some 0 else s.dsp.fb.read? k) ∧
          exec .dspInit s = .next ({ s.after 0x30 rest (ackedCalls calls) with
            dsp := { init := true, width := w, height := h, addr := a, fbLen := BitVec.ofNat 11 n
                     fb := fb } }.done)) ∧
      (∀ x : BitVec 24, d.length < m + 7 → s.env.inputs = acked d ++ .answer ⟨false, x⟩ :: rest →
        ∃ fb : Memory, (∀ k, fb.read? k = if m ≤ d.length ∧ k < n then some 0 else s.dsp.fb.read? k) ∧
          exec .dspInit s = .next ({ s.after 0x30 rest (failingCalls calls d.length) with
            dsp := { init := false, width := w, height := h, addr := a, fbLen := BitVec.ofNat 11 n
                     fb := fb } }.raise
              (.busError (((s.cfg.dsp.initList[d.length]?).map InitEntry.info).getD
                (BitVec.ofNat 8 (0x40 + (d.length - m))))))))

/-- R220, R221: `DSP.CLEAR` zeroes the framebuffer and sends it; a failing byte leaves it zeroed. -/
def Obligations.DspClear : Prop :=
  ∀ (s : State) (n : Nat) (calls : List Prim), s.idle →
    n = s.dsp.width.toNat * s.dsp.height.toNat / 8 → n ≤ 1024 →
    calls = flushCalls s.cfg.dsp s.dsp.addr s.dsp.width s.dsp.height (List.replicate n 0) →
    (s.dsp.init = false → quiet s.env.inputs = true →
      exec .dspClear s = .next ((s.withOp 0x31).raise (.notInitialized 3))) ∧
    (s.dsp.init = true → ∀ (d : List (BitVec 24)) (rest : List Input),
      (d.length = 7 → s.env.inputs = acked d ++ rest → quiet rest = true →
        ∃ fb : Memory, (∀ k, fb.read? k = if k < n then some 0 else s.dsp.fb.read? k) ∧
          exec .dspClear s = .next ({ s.after 0x31 rest (ackedCalls calls) with
            dsp := { s.dsp with fbLen := BitVec.ofNat 11 n, fb := fb } }.done)) ∧
      (∀ x : BitVec 24, d.length < 7 → s.env.inputs = acked d ++ .answer ⟨false, x⟩ :: rest →
        ∃ fb : Memory, (∀ k, fb.read? k = if k < n then some 0 else s.dsp.fb.read? k) ∧
          exec .dspClear s = .next ({ s.after 0x31 rest (failingCalls calls d.length) with
            dsp := { s.dsp with fbLen := BitVec.ofNat 11 n, fb := fb } }.raise
              (.busError (BitVec.ofNat 8 (0x40 + d.length))))))

/-- R225, R226, R227, R228: `DSP.SHOWSTR`: the guard; the range check; the first code without a glyph; else the five
columns of every character are in the framebuffer, every other byte of it is as it was, and all of it is sent. -/
def Obligations.DspShowString : Prop :=
  ∀ (s : State) (start n : Nat), s.idle →
    start = s.host.arg0.toNat * s.dsp.width.toNat * 2 + s.host.arg1.toNat * 6 → n = s.host.len.toNat →
    (s.dsp.init = false → quiet s.env.inputs = true →
      exec .dspShowStr s = .next ((s.withOp 0x32).raise (.notInitialized 3))) ∧
    (s.dsp.init = true → quiet s.env.inputs = true →
      1 ≤ n → s.dsp.fbLen.toNat ≤ start + 6 * (n - 1) + 4 →
      exec .dspShowStr s = .next ((s.withOp 0x32).raise (.illegalOperand 4))) ∧
    (s.dsp.init = true → (n = 0 ∨ start + 6 * (n - 1) + 4 < s.dsp.fbLen.toNat) →
      (∀ (done_ : List Byte) (c : Byte) (more : List Byte), quiet s.env.inputs = true →
        s.text = done_ ++ c :: more → drawable s.cfg.dsp.font done_ = true →
        drawable s.cfg.dsp.font [c] = false →
        exec .dspShowStr s = .next ((s.withOp 0x32).raise (.unsupportedGlyph c))) ∧
      (drawable s.cfg.dsp.font s.text = true →
        ∃ fb : Memory, (∀ k, fb.read? k = afterText s.cfg.dsp.font s.dsp.fb start s.text k) ∧
        ∀ (calls : List Prim) (d : List (BitVec 24)) (rest : List Input),
          calls = flushCalls s.cfg.dsp s.dsp.addr s.dsp.width s.dsp.height
            ((List.range s.dsp.fbLen.toNat).map fun k => (fb.read? k).getD (Config.fbAtReset s.env.epoch k)) →
          (d.length = 7 → s.env.inputs = acked d ++ rest → quiet rest = true →
            exec .dspShowStr s = .next ({ s.after 0x32 rest (ackedCalls calls) with
              dsp := { s.dsp with fb := fb } }.done)) ∧
          (∀ x : BitVec 24, d.length < 7 → s.env.inputs = acked d ++ .answer ⟨false, x⟩ :: rest →
            exec .dspShowStr s = .next ({ s.after 0x32 rest (failingCalls calls d.length) with
              dsp := { s.dsp with fb := fb } }.raise (.busError (BitVec.ofNat 8 (0x40 + d.length)))))))

/-- R230: `DSP.SHOWNUM`: the guard comes before `LEN` and `BUF` are overwritten; then it is `DSP.SHOWSTR` of the
decimal text, whatever the outcome. -/
def Obligations.DspShowNumber : Prop :=
  ∀ (s : State) (text : List Byte) (start : Nat), s.idle → text = decimalText s.host.arg2.toInt →
    start = s.host.arg0.toNat * s.dsp.width.toNat * 2 + s.host.arg1.toNat * 6 →
    (s.dsp.init = false → quiet s.env.inputs = true →
      exec .dspShowNum s = .next ((s.withOp 0x33).raise (.notInitialized 3))) ∧
    (s.dsp.init = true →
      ∃ (buf fb : Memory) (host : HostRegs),
        (∀ k, buf.read? k = if k < text.length then text[k]? else s.host.buf.read? k) ∧
        (∀ k, fb.read? k = afterText s.cfg.dsp.font s.dsp.fb start text k) ∧
        host = { s.host with len := BitVec.ofNat 8 text.length, buf := buf } ∧
        (quiet s.env.inputs = true → s.dsp.fbLen.toNat ≤ start + 6 * (text.length - 1) + 4 →
          exec .dspShowNum s = .next ({ s.withOp 0x33 with host := host }.raise (.illegalOperand 4))) ∧
        (start + 6 * (text.length - 1) + 4 < s.dsp.fbLen.toNat →
          (∀ (done_ : List Byte) (c : Byte) (more : List Byte), quiet s.env.inputs = true →
            text = done_ ++ c :: more → drawable s.cfg.dsp.font done_ = true →
            drawable s.cfg.dsp.font [c] = false →
            exec .dspShowNum s = .next ({ s.withOp 0x33 with host := host }.raise (.unsupportedGlyph c))) ∧
          (drawable s.cfg.dsp.font text = true →
            ∀ (calls : List Prim) (d : List (BitVec 24)) (rest : List Input),
              calls = flushCalls s.cfg.dsp s.dsp.addr s.dsp.width s.dsp.height
                ((List.range s.dsp.fbLen.toNat).map fun k =>
                  (fb.read? k).getD (Config.fbAtReset s.env.epoch k)) →
              (d.length = 7 → s.env.inputs = acked d ++ rest → quiet rest = true →
                exec .dspShowNum s = .next ({ s.after 0x33 rest (ackedCalls calls) with
                  host := host, dsp := { s.dsp with fb := fb } }.done)) ∧
              (∀ x : BitVec 24, d.length < 7 → s.env.inputs = acked d ++ .answer ⟨false, x⟩ :: rest →
                exec .dspShowNum s = .next ({ s.after 0x33 rest (failingCalls calls d.length) with
                  host := host, dsp := { s.dsp with fb := fb } }.raise
                    (.busError (BitVec.ofNat 8 (0x40 + d.length))))))))

/-- R116, R231: decimal text stands for its number, is 1 to 11 ASCII digits with a leading `-` exactly when the number
is negative, and has no leading zero. -/
def Obligations.DecimalText : Prop :=
  ∀ (v : Word) (text digits : List Byte), text = decimalText v.toInt →
    digits = (if v.toInt < 0 then text.tail else text) →
    decimalValue text = v.toInt ∧ 1 ≤ text.length ∧ text.length ≤ 11 ∧
    (v.toInt < 0 → text.head? = some 0x2D) ∧
    allDigits digits = true ∧ digits ≠ [] ∧ (digits.head? = some 0x30 → digits = [0x30]) ∧
    (v = 0 → text = [0x30]) ∧
    (v = 0x80000000 → text = [0x2D, 0x32, 0x31, 0x34, 0x37, 0x34, 0x38, 0x33, 0x36, 0x34, 0x38]) ∧
    (v = 0x7FFFFFFF → text = [0x32, 0x31, 0x34, 0x37, 0x34, 0x38, 0x33, 0x36, 0x34, 0x37])

/-! ## RFC -/

/-- R111: the frequency word is the floor of `f / 61.035` modulo 2^24, exact where it fits, and its three bytes put
together again are the word. -/
def Obligations.FrequencyWord : Prop :=
  ∀ f : Word,
    (frequencyWord f).toNat = specFrequency f.toNat ∧
    (f.toNat ≤ 1023997378 →
      (frequencyWord f).toNat * 61035 ≤ f.toNat * 1000 ∧ f.toNat * 1000 < ((frequencyWord f).toNat + 1) * 61035) ∧
    (frequencyWord f).extractLsb 23 16 ++ (frequencyWord f).extractLsb 15 8 ++ (frequencyWord f).extractLsb 7 0
      = frequencyWord f ∧
    (f = 433000000 → frequencyWord f = 0x6C4012)

/-- R255: `RF.INIT` always completes: Sleep, a delay, the frequency word in three bytes, the configured writes in
order, Standby, a delay. -/
def Obligations.RadioInit : Prop :=
  ∀ (s : State) (as : List Answer) (frf : BitVec 24) (rest : List Input), s.idle →
    as.length = 2 * (7 + s.cfg.rf.modemWrites.length + s.cfg.rf.preambleWrites.length) →
    s.env.inputs = answers as ++ rest → quiet rest = true →
    frf = BitVec.ofNat 24 (specFrequency s.host.arg0.toNat) →
    exec .rfInit s = .next ({ s.after 0x40 rest
        (spiEvents (writePair s.cfg.rf.regOpMode s.cfg.rf.modeSleep) (as.take 2)
          ++ [(⟨.delayMs s.cfg.rf.delay1Ms, ⟨true, 0⟩⟩ : Event)]
          ++ spiEvents (rfInitBytes s.cfg.rf frf) (as.drop 2)
          ++ [(⟨.delayMs s.cfg.rf.delay2Ms, ⟨true, 0⟩⟩ : Event)]) with
      rf := { s.rf with init := true, mode := .standby, frf := frf } }.done)

/-- R260, R262: `RF.SEND` when the transmit-done bit is first seen at the `j`-th read of the flag register. -/
def Obligations.RadioSend : Prop :=
  ∀ (s : State) (as : List Answer) (j : Nat) (rest : List Input), s.idle →
    s.host.arg0.toNat ≤ 255 → s.host.len.toNat ≤ 254 → s.rf.init = true →
    1 ≤ j → withinBound s.cfg.rf.pollMax (j - 1) →
    as.length = 2 * (8 + s.host.len.toNat + j) →
    (∀ k, k < j → flagIn s.cfg.rf as (2 * (6 + s.host.len.toNat + k) + 1) = decide (k + 1 = j)) →
    s.env.inputs = answers as ++ rest → quiet rest = true →
    exec .rfSend s = .next ({ s.after 0x41 rest
        (spiEvents (sendBytes s.cfg.rf (s.host.arg0.setWidth 8) s.host.len s.text ++ pollBytes s.cfg.rf j
          ++ closeBytes s.cfg.rf) as) with
      rf := { s.rf with mode := .standby } }.done)

/-- R263: `RF.SEND` when all the reads the bound allows return with the bit clear: Standby is written, the flags are
not, and the operation ends with `Timeout(0xC0)`. -/
def Obligations.RadioSendTimeout : Prop :=
  ∀ (s : State) (as : List Answer) (b : Nat) (rest : List Input), s.idle →
    s.host.arg0.toNat ≤ 255 → s.host.len.toNat ≤ 254 → s.rf.init = true → s.cfg.rf.pollMax = some b →
    as.length = 2 * (7 + s.host.len.toNat + b) →
    (∀ k, k < b → flagIn s.cfg.rf as (2 * (6 + s.host.len.toNat + k) + 1) = false) →
    s.env.inputs = answers as ++ rest → quiet rest = true →
    exec .rfSend s = .next ({ s.after 0x41 rest
        (spiEvents (sendBytes s.cfg.rf (s.host.arg0.setWidth 8) s.host.len s.text ++ pollBytes s.cfg.rf b
          ++ writePair s.cfg.rf.regOpMode s.cfg.rf.modeStdby) as) with
      rf := { s.rf with mode := .standby } }.raise (.timeout 0xC0))

/-- R264: `RF.SEND` before `RF.INIT` puts nothing on the bus and changes nothing; an operand out of range is
reported first. -/
def Obligations.RadioSendTooEarly : Prop :=
  ∀ s : State, s.idle → s.rf.init = false → quiet s.env.inputs = true →
    exec .rfSend s = .next ((s.withOp 0x41).raise
      (if 255 < s.host.arg0.toNat then .illegalOperand 0
        else if 254 < s.host.len.toNat then .illegalOperand 3
        else .notInitialized 4))

/-- R267: `RF.ONRECV` enables the receive interrupt, needs no initialisation and does nothing else. -/
def Obligations.RadioOnReceive : Prop :=
  ∀ s : State, s.idle → quiet s.env.inputs = true →
    exec .rfOnRecv s = .next ({ s.withOp 0x42 with rf := { s.rf with rxie := true } }.done)

/-! ## Whole-machine rules -/

/-- R103: an operand outside its legal range ends any operation with `IllegalOperand` of the lowest such operand,
before the unit's guard, before any event and before any change of state. -/
def Obligations.OperandsAreChecked : Prop :=
  ∀ (i : Instr) (s : State), s.idle → quiet s.env.inputs = true → i.wellFormed s.operands = false →
    exec i s = .next ((s.withOp (opcodeOf i)).raise (.illegalOperand (match i with
      | .dspInit =>
        if s.host.arg0.toNat < 1 ∨ 128 < s.host.arg0.toNat then 0
        else if s.host.arg1.toNat < 8 ∨ 64 < s.host.arg1.toNat ∨ s.host.arg1.toNat % 8 ≠ 0 then 1
        else 2
      | .rfSend => if 255 < s.host.arg0.toNat then 0 else 3
      | _ => 0)))

/-- R302: an operation that ends with `NotInitialized`, `UnsupportedGlyph` or `IllegalOperand` has made no event and
changed nothing but `OP`, and for `DSP.SHOWNUM` `LEN` and `BUF`. -/
def Obligations.EarlyCauses : Prop :=
  ∀ (i : Instr) (s t : State), s.idle → quiet s.env.inputs = true → exec i s = .next t → t.idle →
    (t.seq.cause.extractLsb 3 0 = 2 ∨ t.seq.cause.extractLsb 3 0 = 5 ∨ t.seq.cause.extractLsb 3 0 = 7) →
    ∃ c : Cause,
      t = { s.withOp (opcodeOf i) with host := { s.host with len := t.host.len, buf := t.host.buf } }.raise c ∧
      (i ≠ .dspShowNum → t.host.len = s.host.len ∧ t.host.buf = s.host.buf)

/-- R303: the cause matrix: whatever state an operation runs in, when it ends its cause is one of its row. -/
def Obligations.CauseMatrix : Prop :=
  ∀ (i : Instr) (s t : State), exec i s = .next t → t.idle →
    mayEndWith i (t.seq.cause.extractLsb 3 0) (t.seq.cause.extractLsb 15 8) = true

/-- R296: `RET0` and `RET1` keep their values while an operation waits and when it ends with a cause. -/
def Obligations.ResultsOnlyOnSuccess : Prop :=
  ∀ (i : Instr) (s t : State), noReset s.env.inputs = true → exec i s = .next t →
    (t.seq.busy = true ∨ t.seq.cause ≠ 0) → sameResults s t

/-- R304: without reset, an operation changes no state of another unit (the pending bit, which the host and the
radio change at any time, apart), and never the operand registers; `LEN` and `BUF` only `DSP.SHOWNUM`. -/
def Obligations.UnitIsolation : Prop :=
  ∀ (i : Instr) (s t : State), noReset s.env.inputs = true → exec i s = .next t →
    (i.isPtc = false → t.pt = s.pt) ∧ (i.isSwd = false → t.sw = s.sw) ∧ (i.isFtr = false → t.dsp = s.dsp) ∧
    (i.isRfc = false → t.rf = s.rf.butPending t.rf.rxpend) ∧
    t.host.arg0 = s.host.arg0 ∧ t.host.arg1 = s.host.arg1 ∧ t.host.arg2 = s.host.arg2 ∧
    (i ≠ .dspShowNum → t.host.len = s.host.len ∧ t.host.buf = s.host.buf)

/-- R69, R140, R180, R210, R250, R333: what happened stays happened, and every call an operation adds to the trace is
one its unit may make; no pin is ever driven high. -/
def Obligations.OnlyOwnPorts : Prop :=
  ∀ (i : Instr) (s t : State), exec i s = .next t →
    ∃ events : List Event, t.env.trace = s.env.trace ++ events ∧ ∀ e ∈ events, mayCall i e.prim = true

/-- R20: no step changes the configuration (the font ROM included). -/
def Obligations.ConfigNeverChanges : Prop :=
  ∀ s t : State, step s = .next t → t.cfg = s.cfg

/-- R22, R24, R28, R33, R41, R322: what holds of every state between steps is kept by every step. -/
def Obligations.StepKeepsCanonical : Prop :=
  ∀ s t : State, s.Canonical → step s = .next t → t.Canonical

/-- The state after reset meets the invariant. -/
def Obligations.InvAtReset : Prop := State.reset.Inv

/-- R233, R270, R322: the invariant is kept by every step. -/
def Obligations.StepKeepsInv : Prop :=
  ∀ s t : State, s.Inv → step s = .next t → t.Inv

/-- R81: an operation's events and results are the same whenever and however often `RxEvent` arrives: without those
events among the inputs the same happens, but for the pending bit and what host reads of `STATUS` show of it. (The
premise: no other outside action jumps in before a step, the model's choice of what such an action means, log 3.) -/
def Obligations.RxEventsDoNotDisturb : Prop :=
  ∀ (i : Instr) (s t t' : State), onlyRxEarly s.env.inputs = true →
    exec i s = .next t → exec i (s.withInputs (withoutRxEvents s.env.inputs)) = .next t' →
    t.alikeButPending t' ∧ withoutRxEvents t.env.inputs = t'.env.inputs

/-- An operation that waits for an answer goes on, when more inputs come of which the first does not jump in, exactly as
if they had been there from the start (the model's choice of how a run is cut into steps, logs 1, 2, 3 and 11). -/
def Obligations.ResumeAfterWaiting : Prop :=
  ∀ (i : Instr) (s t : State) (xs ys : List Input), (s.seq.busy = true → 1 ≤ s.seq.phase) →
    exec i (s.withInputs xs) = .next t → t.seq.busy = true → quiet ys = true →
    exec i (s.withInputs (xs ++ ys)) = exec i (t.withInputs ys)

/-- R310: with finite poll bounds every operation ends: given as many answers as `answersNeeded`, whatever they are
and whatever else comes between them, it is not waiting. -/
def Obligations.BoundedWaitsEnd : Prop :=
  ∀ (i : Instr) (s t : State) (a b : Nat), s.idle → s.cfg.swPollMax = some a → 1 ≤ a → s.cfg.rf.pollMax = some b →
    answersNeeded i s a b ≤ (s.env.inputs.filter Input.isAnswer).length → exec i s = .next t → t.idle

/-! ## The asserted reset input; the initialization list -/

/-- R321: while the reset input is asserted ESPB is held: a host write, `CMD` included, an `RxEvent` and an answer do
nothing, a host read shows the reset values, and at the release every register has its reset value (what is read, and
what is not a register, is the model's choice, log 16). -/
def Obligations.ResetHeld : Prop :=
  ∀ (s : State) (rest : List Input), s.Inv → s.env.rst = true →
    (s.env.inputs = [] → step s = .next s) ∧
    (∀ a : Answer, (s.env.inputs = .answer a :: rest ∨ s.env.inputs = .pass :: rest) →
      step s = .next (s.withInputs rest)) ∧
    (∀ e : External, (s.env.inputs = .ext e :: rest ∨ s.env.inputs = .early e :: rest) →
      (∀ i v, e = .hostWrite i v → step s = .next (s.withInputs rest)) ∧
      (∀ num, e = .rxEvent num → step s = .next (s.withInputs rest)) ∧
      (∀ i v num, e = .hostWriteRx i v num → step s = .next (s.withInputs rest)) ∧
      (∀ i, e = .hostRead i → step s = .next { s with env := { s.env with
        inputs := rest, hostReads := s.env.hostReads ++ [⟨i, s.hostValue i⟩] } }) ∧
      (∀ b, e = .rst b → step s = .next { State.reset with
        cfg := s.cfg, env := { s.env with rst := b, inputs := rest, epoch := s.env.epoch + 1 } }))

/-- R214: the list of the shape the rule shows: its sixteen steps in order, the source's operands, 25 bytes numbered
from 0, whatever the parameters; and the bytes of the general-knowledge list (PRESUMED, log 6) for each height. -/
def Obligations.DspInitTable : Prop :=
  ∀ (p : DspInitBytes) (c : DspConfig) (a : TwAddr) (h : Byte), 1 ≤ h.toNat →
    initInOrder p.table = true ∧ p.table.map (·.info) = (List.range 25).map (BitVec.ofNat 8) ∧
    (c.initList = p.table → initCalls c a h =
      ([p.cOff, p.cClkDiv, p.vClkDiv, p.cMux, h - 1, p.cOffset, 0, p.cStartLine, p.cChargePump, p.vCpOn,
        p.cAddrMode, p.vHoriz, p.cSegRemap, p.cComDir, p.cComPins,
        if h = 32 then p.vComPins32 else p.vComPinsOther,
        p.cContrast, p.vContrast, p.cPrecharge, p.vPrecharge, p.cVcomDesel, p.vVcomDesel, p.cAllOnResume,
        p.cNormal, p.cOn] : List Byte).map (Prim.twWrite8 a c.ctrlCmd)) ∧
    initListOk Config.chipInitBytes.table = true ∧
    (c.initList = Config.chipInitBytes.table → initCalls c a h =
      ([0xAE, 0xD5, 0x80, 0xA8, h - 1, 0xD3, 0x00, 0x40, 0x8D, 0x14, 0x20, 0x00, 0xA1, 0xC8, 0xDA,
        if h = 32 then 0x02 else 0x12,
        0x81, 0xCF, 0xD9, 0xF1, 0xDB, 0x40, 0xA4, 0xA6, 0xAF] : List Byte).map (Prim.twWrite8 a c.ctrlCmd))

/-! ## Outside actions and missing answers while an operation is in flight -/

/-- R64, R66, R76, R300, R301: an outside action that comes first while an operation waits is acted on, with the effect
`State.external` gives it, and then the operation goes on; with nothing after it the operation waits on, at the same
step. (The second clause leaves out a poll of `RF.SEND` that stands at its bound, which no run reaches.) -/
def Obligations.BusyTakesOutsideActions : Prop :=
  ∀ (s : State) (e : External) (rest : List Input), s.Inv → s.env.rst = false → s.seq.busy = true →
    (s.env.inputs = .ext e :: rest ∨ s.env.inputs = .early e :: rest) → s.resetBy e = false →
    step s = step ((s.withInputs rest).external e) ∧
    (rest = [] → (s.seq.op ≠ 0x41 ∨ s.seq.midRead = true ∨ s.cfg.rf.pollMax ≠ some s.seq.polls) →
      step s = .next ((s.withInputs []).external e) ∧ ((s.withInputs []).external e).seq.busy = true)

/-- R21, R24: an operation that nothing turns away and whose next answer has not come is in flight: `BUSY` = 1, `OP` its
opcode, `CAUSE`, `RET0` and `RET1` as they were, one event for each answer so far. (That a missing answer makes it
wait is the model's choice, log 2.) The line of a single-wire read is one that stays within its bound; for `RF.SEND`
the answers are those before its poll. -/
def Obligations.WaitsForAnswer : Prop :=
  ∀ (i : Instr) (s : State) (as : List Answer) (low high : Nat) (ws : List BitWave) (line : List Bool),
    s.idle → s.passesChecks i = true → s.env.inputs = answers as →
    line = handshakeLine low high ++ bitsLine ws →
    (i.isPtc = true ∨ i.isFtr = true → ∀ a ∈ as, a.ack = true) →
    (i.isSwd = true → ws.length = 40 ∧ withinBound s.cfg.swPollMax low ∧ withinBound s.cfg.swPollMax high ∧
      (∀ w ∈ ws, withinBound s.cfg.swPollMax w.low ∧ withinBound s.cfg.swPollMax w.high) ∧
      answersOf as (line.take as.length)) →
    as.length < (match i with
      | .swReadT => line.length
      | .swReadH => line.length
      | .rfSend => 2 * (6 + s.host.len.toNat)
      | _ => answersNeeded i s 0 0) →
    ∃ (t : State) (events : List Event), exec i s = .next t ∧
      t.seq.busy = true ∧ t.seq.op = opcodeOf i ∧ t.seq.cause = s.seq.cause ∧ sameResults s t ∧
      t.env.inputs = [] ∧ t.env.trace = s.env.trace ++ events ∧
      (events.filter fun e => e.prim.asks).length = as.length

/-- R181, R262, R298: with an infinite bound a wait loop that never sees what it waits for never ends: after every
answer so far the operation is in flight. A single-wire read of a line that stays low after the response, and
`RF.SEND` whose flag reads all show the bit clear. (The step numbers are the model's, log 11.) -/
def Obligations.InfiniteBoundWaits : Prop :=
  ∀ (s : State) (as : List Answer), s.idle → s.env.inputs = answers as →
    (∀ i, (i = .swReadT ∨ i = .swReadH) → s.host.arg0.toNat ≤ 255 → s.cfg.swPollMax = none → 1 ≤ as.length →
      answersOf as (List.replicate as.length false) →
      exec i s = .next { s.after (opcodeOf i) []
          (startEvents (s.host.arg0.setWidth 8) ++
            List.replicate as.length (pinEvent (s.host.arg0.setWidth 8) false)) with
        seq := { s.seq with
          busy := true, op := opcodeOf i, phase := 7, acc := 0, polls := as.length - 1, midRead := false
          pinLow := none } }) ∧
    (∀ m : Nat, m = 2 * (6 + s.host.len.toNat) →
      s.host.arg0.toNat ≤ 255 → s.host.len.toNat ≤ 254 → s.rf.init = true → s.cfg.rf.pollMax = none →
      m ≤ as.length → (∀ k < as.length, m + 2 * k + 1 < as.length → flagIn s.cfg.rf as (m + 2 * k + 1) = false) →
      exec .rfSend s = .next { s.after 0x41 []
          (spiEvents (sendBytes s.cfg.rf (s.host.arg0.setWidth 8) s.host.len s.text ++
            pollBytes s.cfg.rf as.length) as) with
        seq := { s.seq with
          busy := true, op := 0x41, phase := 15 + 2 * s.host.len.toNat, acc := 0, polls := (as.length - m) / 2
          midRead := decide ((as.length - m) % 2 = 1) }
        rf := { s.rf with mode := .transmit } })

/-- R7, R81, R300, R321: outside actions that land at these points of a single-wire read (`SW.READT`, `SW.READH`),
most of them between two steps that ask nothing; after how many steps is said by as many `pass` (the model's form,
log 3). A reset after the operand check and the first `k` of S1 to S4: exactly the first `k` events have happened. An
`RxEvent` after the first `j` steps of the operand check and S1 to S4: it is pending, and the read waits at S5 as
without it. A `STATUS` read after the last answer: before S14 it shows the old `SWSTAT`, after S15 and before the end
the new one, `BUSY` = 1 both times. Nothing is said here of the points between S6 and S13. -/
def Obligations.ActionsLandBetweenSteps : Prop :=
  ∀ (s : State) (i : Instr), s.idle → s.host.arg0.toNat ≤ 255 → (i = .swReadT ∨ i = .swReadH) →
    (∀ (k : Nat) (rest : List Input), k ≤ 4 →
      s.env.inputs = List.replicate (k + 1) .pass ++ .early (.rst true) :: rest →
      exec i s = .next { State.reset with
        cfg := s.cfg
        env := { s.env with
          rst := true, inputs := rest, epoch := s.env.epoch + 1
          trace := s.env.trace ++ (startEvents (s.host.arg0.setWidth 8)).take k } }) ∧
    (∀ (j : Nat) (num : Word), j ≤ 5 → s.env.inputs = List.replicate j .pass ++ [.early (.rxEvent num)] →
      exec i s = .next { s.after (opcodeOf i) [] (startEvents (s.host.arg0.setWidth 8)) with
        seq := { s.seq with
          busy := true, op := opcodeOf i, phase := 6, acc := 0, polls := 0, midRead := false, pinLow := none }
        rf := { s.rf with rxpend := s.rf.rxie || s.rf.rxpend } }) ∧
    (∀ (as : List Answer) (low high : Nat) (ws : List BitWave) (late : Bool), ws.length = 40 →
      withinBound s.cfg.swPollMax low → withinBound s.cfg.swPollMax high →
      (∀ w ∈ ws, withinBound s.cfg.swPollMax w.low ∧ withinBound s.cfg.swPollMax w.high) →
      answersOf as (handshakeLine low high ++ bitsLine ws) →
      s.env.inputs = answers as ++ (if late then [.pass, .early (.hostRead 0x001)] else [.early (.hostRead 0x001)]) →
      ∃ (t : State) (v : Word), exec i s = .next t ∧ t.idle ∧ t.seq.cause = 0 ∧ t.sw = s.sw.afterFrame (frameOf ws) ∧
        t.env.hostReads = s.env.hostReads ++ [⟨0x001, v⟩] ∧ v.getLsbD 0 = true ∧
        v.extractLsb 10 8 = (if late then (s.sw.afterFrame (frameOf ws)).stat.code else s.sw.stat.code))

end
end

