-- ==== Sys2Proof/Laws/State.lean ====
section
/-! SUPPORT. One lemma per field and per named update of the state, so that no later proof unfolds a record update. -/

namespace Sys2Proof.Machine


/-! ### `withInputs` -/

@[simp] theorem State.withInputs_cfg (s : State) (l : List Input) : (s.withInputs l).cfg = s.cfg := rfl
@[simp] theorem State.withInputs_seq (s : State) (l : List Input) : (s.withInputs l).seq = s.seq := rfl
@[simp] theorem State.withInputs_host (s : State) (l : List Input) : (s.withInputs l).host = s.host := rfl
@[simp] theorem State.withInputs_pt (s : State) (l : List Input) : (s.withInputs l).pt = s.pt := rfl
@[simp] theorem State.withInputs_sw (s : State) (l : List Input) : (s.withInputs l).sw = s.sw := rfl
@[simp] theorem State.withInputs_dsp (s : State) (l : List Input) : (s.withInputs l).dsp = s.dsp := rfl
@[simp] theorem State.withInputs_rf (s : State) (l : List Input) : (s.withInputs l).rf = s.rf := rfl
@[simp] theorem State.withInputs_trace (s : State) (l : List Input) : (s.withInputs l).env.trace = s.env.trace := rfl
@[simp] theorem State.withInputs_hostReads (s : State) (l : List Input) : (s.withInputs l).env.hostReads = s.env.hostReads := rfl
@[simp] theorem State.withInputs_freeReads (s : State) (l : List Input) : (s.withInputs l).env.freeReads = s.env.freeReads := rfl
@[simp] theorem State.withInputs_epoch (s : State) (l : List Input) : (s.withInputs l).env.epoch = s.env.epoch := rfl
@[simp] theorem State.withInputs_rst (s : State) (l : List Input) : (s.withInputs l).env.rst = s.env.rst := rfl
@[simp] theorem State.withInputs_inputs (s : State) (l : List Input) : (s.withInputs l).env.inputs = l := rfl
@[simp] theorem State.withInputs_self (s : State) : s.withInputs s.env.inputs = s := rfl
@[simp] theorem State.withInputs_twice (s : State) (k l : List Input) : (s.withInputs k).withInputs l = s.withInputs l := rfl

/-! ### `nextPhase` -/

@[simp] theorem State.nextPhase_cfg (s : State) : (s.nextPhase).cfg = s.cfg := rfl
@[simp] theorem State.nextPhase_host (s : State) : (s.nextPhase).host = s.host := rfl
@[simp] theorem State.nextPhase_pt (s : State) : (s.nextPhase).pt = s.pt := rfl
@[simp] theorem State.nextPhase_sw (s : State) : (s.nextPhase).sw = s.sw := rfl
@[simp] theorem State.nextPhase_dsp (s : State) : (s.nextPhase).dsp = s.dsp := rfl
@[simp] theorem State.nextPhase_rf (s : State) : (s.nextPhase).rf = s.rf := rfl
@[simp] theorem State.nextPhase_busy (s : State) : (s.nextPhase).seq.busy = s.seq.busy := rfl
@[simp] theorem State.nextPhase_op (s : State) : (s.nextPhase).seq.op = s.seq.op := rfl
@[simp] theorem State.nextPhase_phase (s : State) : (s.nextPhase).seq.phase = s.seq.phase + 1 := rfl
@[simp] theorem State.nextPhase_cause (s : State) : (s.nextPhase).seq.cause = s.seq.cause := rfl
@[simp] theorem State.nextPhase_ovr (s : State) : (s.nextPhase).seq.ovr = s.seq.ovr := rfl
@[simp] theorem State.nextPhase_acc (s : State) : (s.nextPhase).seq.acc = s.seq.acc := rfl
@[simp] theorem State.nextPhase_polls (s : State) : (s.nextPhase).seq.polls = s.seq.polls := rfl
@[simp] theorem State.nextPhase_midRead (s : State) : (s.nextPhase).seq.midRead = s.seq.midRead := rfl
@[simp] theorem State.nextPhase_pinLow (s : State) : (s.nextPhase).seq.pinLow = s.seq.pinLow := rfl
@[simp] theorem State.nextPhase_inputs (s : State) : (s.nextPhase).env.inputs = s.env.inputs := rfl
@[simp] theorem State.nextPhase_trace (s : State) : (s.nextPhase).env.trace = s.env.trace := rfl
@[simp] theorem State.nextPhase_hostReads (s : State) : (s.nextPhase).env.hostReads = s.env.hostReads := rfl
@[simp] theorem State.nextPhase_freeReads (s : State) : (s.nextPhase).env.freeReads = s.env.freeReads := rfl
@[simp] theorem State.nextPhase_epoch (s : State) : (s.nextPhase).env.epoch = s.env.epoch := rfl
@[simp] theorem State.nextPhase_rst (s : State) : (s.nextPhase).env.rst = s.env.rst := rfl

/-! ### `start` -/

@[simp] theorem State.start_cfg (s : State) (o : Byte) : (s.start o).cfg = s.cfg := rfl
@[simp] theorem State.start_host (s : State) (o : Byte) : (s.start o).host = s.host := rfl
@[simp] theorem State.start_pt (s : State) (o : Byte) : (s.start o).pt = s.pt := rfl
@[simp] theorem State.start_sw (s : State) (o : Byte) : (s.start o).sw = s.sw := rfl
@[simp] theorem State.start_dsp (s : State) (o : Byte) : (s.start o).dsp = s.dsp := rfl
@[simp] theorem State.start_rf (s : State) (o : Byte) : (s.start o).rf = s.rf := rfl
@[simp] theorem State.start_busy (s : State) (o : Byte) : (s.start o).seq.busy = true := rfl
@[simp] theorem State.start_op (s : State) (o : Byte) : (s.start o).seq.op = o := rfl
@[simp] theorem State.start_phase (s : State) (o : Byte) : (s.start o).seq.phase = 1 := rfl
@[simp] theorem State.start_cause (s : State) (o : Byte) : (s.start o).seq.cause = s.seq.cause := rfl
@[simp] theorem State.start_ovr (s : State) (o : Byte) : (s.start o).seq.ovr = s.seq.ovr := rfl
@[simp] theorem State.start_acc (s : State) (o : Byte) : (s.start o).seq.acc = 0 := rfl
@[simp] theorem State.start_polls (s : State) (o : Byte) : (s.start o).seq.polls = 0 := rfl
@[simp] theorem State.start_midRead (s : State) (o : Byte) : (s.start o).seq.midRead = false := rfl
@[simp] theorem State.start_pinLow (s : State) (o : Byte) : (s.start o).seq.pinLow = s.seq.pinLow := rfl
@[simp] theorem State.start_inputs (s : State) (o : Byte) : (s.start o).env.inputs = s.env.inputs := rfl
@[simp] theorem State.start_trace (s : State) (o : Byte) : (s.start o).env.trace = s.env.trace := rfl
@[simp] theorem State.start_hostReads (s : State) (o : Byte) : (s.start o).env.hostReads = s.env.hostReads := rfl
@[simp] theorem State.start_freeReads (s : State) (o : Byte) : (s.start o).env.freeReads = s.env.freeReads := rfl
@[simp] theorem State.start_epoch (s : State) (o : Byte) : (s.start o).env.epoch = s.env.epoch := rfl
@[simp] theorem State.start_rst (s : State) (o : Byte) : (s.start o).env.rst = s.env.rst := rfl

/-! ### `endWith` -/

@[simp] theorem State.endWith_cfg (s : State) (w : BitVec 16) : (s.endWith w).cfg = s.cfg := rfl
@[simp] theorem State.endWith_host (s : State) (w : BitVec 16) : (s.endWith w).host = s.host := rfl
@[simp] theorem State.endWith_pt (s : State) (w : BitVec 16) : (s.endWith w).pt = s.pt := rfl
@[simp] theorem State.endWith_sw (s : State) (w : BitVec 16) : (s.endWith w).sw = s.sw := rfl
@[simp] theorem State.endWith_dsp (s : State) (w : BitVec 16) : (s.endWith w).dsp = s.dsp := rfl
@[simp] theorem State.endWith_rf (s : State) (w : BitVec 16) : (s.endWith w).rf = s.rf := rfl
@[simp] theorem State.endWith_busy (s : State) (w : BitVec 16) : (s.endWith w).seq.busy = false := rfl
@[simp] theorem State.endWith_op (s : State) (w : BitVec 16) : (s.endWith w).seq.op = s.seq.op := rfl
@[simp] theorem State.endWith_phase (s : State) (w : BitVec 16) : (s.endWith w).seq.phase = 0 := rfl
@[simp] theorem State.endWith_cause (s : State) (w : BitVec 16) : (s.endWith w).seq.cause = w := rfl
@[simp] theorem State.endWith_ovr (s : State) (w : BitVec 16) : (s.endWith w).seq.ovr = s.seq.ovr := rfl
@[simp] theorem State.endWith_acc (s : State) (w : BitVec 16) : (s.endWith w).seq.acc = 0 := rfl
@[simp] theorem State.endWith_polls (s : State) (w : BitVec 16) : (s.endWith w).seq.polls = 0 := rfl
@[simp] theorem State.endWith_midRead (s : State) (w : BitVec 16) : (s.endWith w).seq.midRead = false := rfl
@[simp] theorem State.endWith_pinLow (s : State) (w : BitVec 16) : (s.endWith w).seq.pinLow = none := rfl
@[simp] theorem State.endWith_inputs (s : State) (w : BitVec 16) : (s.endWith w).env.inputs = s.env.inputs := rfl
@[simp] theorem State.endWith_trace (s : State) (w : BitVec 16) : (s.endWith w).env.trace = s.env.trace := rfl
@[simp] theorem State.endWith_hostReads (s : State) (w : BitVec 16) : (s.endWith w).env.hostReads = s.env.hostReads := rfl
@[simp] theorem State.endWith_freeReads (s : State) (w : BitVec 16) : (s.endWith w).env.freeReads = s.env.freeReads := rfl
@[simp] theorem State.endWith_epoch (s : State) (w : BitVec 16) : (s.endWith w).env.epoch = s.env.epoch := rfl
@[simp] theorem State.endWith_rst (s : State) (w : BitVec 16) : (s.endWith w).env.rst = s.env.rst := rfl

/-! ### `done` -/

@[simp] theorem State.done_cfg (s : State) : (s.done).cfg = s.cfg := rfl
@[simp] theorem State.done_host (s : State) : (s.done).host = s.host := rfl
@[simp] theorem State.done_pt (s : State) : (s.done).pt = s.pt := rfl
@[simp] theorem State.done_sw (s : State) : (s.done).sw = s.sw := rfl
@[simp] theorem State.done_dsp (s : State) : (s.done).dsp = s.dsp := rfl
@[simp] theorem State.done_rf (s : State) : (s.done).rf = s.rf := rfl
@[simp] theorem State.done_busy (s : State) : (s.done).seq.busy = false := rfl
@[simp] theorem State.done_op (s : State) : (s.done).seq.op = s.seq.op := rfl
@[simp] theorem State.done_phase (s : State) : (s.done).seq.phase = 0 := rfl
@[simp] theorem State.done_cause (s : State) : (s.done).seq.cause = 0 := rfl
@[simp] theorem State.done_ovr (s : State) : (s.done).seq.ovr = s.seq.ovr := rfl
@[simp] theorem State.done_acc (s : State) : (s.done).seq.acc = 0 := rfl
@[simp] theorem State.done_polls (s : State) : (s.done).seq.polls = 0 := rfl
@[simp] theorem State.done_midRead (s : State) : (s.done).seq.midRead = false := rfl
@[simp] theorem State.done_pinLow (s : State) : (s.done).seq.pinLow = none := rfl
@[simp] theorem State.done_inputs (s : State) : (s.done).env.inputs = s.env.inputs := rfl
@[simp] theorem State.done_trace (s : State) : (s.done).env.trace = s.env.trace := rfl
@[simp] theorem State.done_hostReads (s : State) : (s.done).env.hostReads = s.env.hostReads := rfl
@[simp] theorem State.done_freeReads (s : State) : (s.done).env.freeReads = s.env.freeReads := rfl
@[simp] theorem State.done_epoch (s : State) : (s.done).env.epoch = s.env.epoch := rfl
@[simp] theorem State.done_rst (s : State) : (s.done).env.rst = s.env.rst := rfl

/-! ### `raise` -/

@[simp] theorem State.raise_cfg (s : State) (c : Cause) : (s.raise c).cfg = s.cfg := rfl
@[simp] theorem State.raise_host (s : State) (c : Cause) : (s.raise c).host = s.host := rfl
@[simp] theorem State.raise_pt (s : State) (c : Cause) : (s.raise c).pt = s.pt := rfl
@[simp] theorem State.raise_sw (s : State) (c : Cause) : (s.raise c).sw = s.sw := rfl
@[simp] theorem State.raise_dsp (s : State) (c : Cause) : (s.raise c).dsp = s.dsp := rfl
@[simp] theorem State.raise_rf (s : State) (c : Cause) : (s.raise c).rf = s.rf := rfl
@[simp] theorem State.raise_busy (s : State) (c : Cause) : (s.raise c).seq.busy = false := rfl
@[simp] theorem State.raise_op (s : State) (c : Cause) : (s.raise c).seq.op = s.seq.op := rfl
@[simp] theorem State.raise_phase (s : State) (c : Cause) : (s.raise c).seq.phase = 0 := rfl
@[simp] theorem State.raise_cause (s : State) (c : Cause) : (s.raise c).seq.cause = c.word := rfl
@[simp] theorem State.raise_ovr (s : State) (c : Cause) : (s.raise c).seq.ovr = s.seq.ovr := rfl
@[simp] theorem State.raise_acc (s : State) (c : Cause) : (s.raise c).seq.acc = 0 := rfl
@[simp] theorem State.raise_polls (s : State) (c : Cause) : (s.raise c).seq.polls = 0 := rfl
@[simp] theorem State.raise_midRead (s : State) (c : Cause) : (s.raise c).seq.midRead = false := rfl
@[simp] theorem State.raise_pinLow (s : State) (c : Cause) : (s.raise c).seq.pinLow = none := rfl
@[simp] theorem State.raise_inputs (s : State) (c : Cause) : (s.raise c).env.inputs = s.env.inputs := rfl
@[simp] theorem State.raise_trace (s : State) (c : Cause) : (s.raise c).env.trace = s.env.trace := rfl
@[simp] theorem State.raise_hostReads (s : State) (c : Cause) : (s.raise c).env.hostReads = s.env.hostReads := rfl
@[simp] theorem State.raise_freeReads (s : State) (c : Cause) : (s.raise c).env.freeReads = s.env.freeReads := rfl
@[simp] theorem State.raise_epoch (s : State) (c : Cause) : (s.raise c).env.epoch = s.env.epoch := rfl
@[simp] theorem State.raise_rst (s : State) (c : Cause) : (s.raise c).env.rst = s.env.rst := rfl

/-! ### `record` -/

@[simp] theorem State.record_cfg (s : State) (p : Prim) (a : Answer) : (s.record p a).cfg = s.cfg := rfl
@[simp] theorem State.record_host (s : State) (p : Prim) (a : Answer) : (s.record p a).host = s.host := rfl
@[simp] theorem State.record_pt (s : State) (p : Prim) (a : Answer) : (s.record p a).pt = s.pt := rfl
@[simp] theorem State.record_sw (s : State) (p : Prim) (a : Answer) : (s.record p a).sw = s.sw := rfl
@[simp] theorem State.record_dsp (s : State) (p : Prim) (a : Answer) : (s.record p a).dsp = s.dsp := rfl
@[simp] theorem State.record_rf (s : State) (p : Prim) (a : Answer) : (s.record p a).rf = s.rf := rfl
@[simp] theorem State.record_busy (s : State) (p : Prim) (a : Answer) : (s.record p a).seq.busy = s.seq.busy := rfl
@[simp] theorem State.record_op (s : State) (p : Prim) (a : Answer) : (s.record p a).seq.op = s.seq.op := rfl
@[simp] theorem State.record_phase (s : State) (p : Prim) (a : Answer) : (s.record p a).seq.phase = s.seq.phase := rfl
@[simp] theorem State.record_cause (s : State) (p : Prim) (a : Answer) : (s.record p a).seq.cause = s.seq.cause := rfl
@[simp] theorem State.record_ovr (s : State) (p : Prim) (a : Answer) : (s.record p a).seq.ovr = s.seq.ovr := rfl
@[simp] theorem State.record_acc (s : State) (p : Prim) (a : Answer) : (s.record p a).seq.acc = s.seq.acc := rfl
@[simp] theorem State.record_polls (s : State) (p : Prim) (a : Answer) : (s.record p a).seq.polls = s.seq.polls := rfl
@[simp] theorem State.record_midRead (s : State) (p : Prim) (a : Answer) : (s.record p a).seq.midRead = s.seq.midRead := rfl
@[simp] theorem State.record_pinLow (s : State) (p : Prim) (a : Answer) : (s.record p a).seq.pinLow = s.seq.pinLow := rfl
@[simp] theorem State.record_inputs (s : State) (p : Prim) (a : Answer) : (s.record p a).env.inputs = s.env.inputs := rfl
@[simp] theorem State.record_trace (s : State) (p : Prim) (a : Answer) : (s.record p a).env.trace = s.env.trace ++ [⟨p, a⟩] := rfl
@[simp] theorem State.record_hostReads (s : State) (p : Prim) (a : Answer) : (s.record p a).env.hostReads = s.env.hostReads := rfl
@[simp] theorem State.record_freeReads (s : State) (p : Prim) (a : Answer) : (s.record p a).env.freeReads = s.env.freeReads := rfl
@[simp] theorem State.record_epoch (s : State) (p : Prim) (a : Answer) : (s.record p a).env.epoch = s.env.epoch := rfl
@[simp] theorem State.record_rst (s : State) (p : Prim) (a : Answer) : (s.record p a).env.rst = s.env.rst := rfl

/-! ### `after` -/

@[simp] theorem State.after_cfg (s : State) (o : Byte) (r : List Input) (ev : List Event) : (s.after o r ev).cfg = s.cfg := rfl
@[simp] theorem State.after_host (s : State) (o : Byte) (r : List Input) (ev : List Event) : (s.after o r ev).host = s.host := rfl
@[simp] theorem State.after_pt (s : State) (o : Byte) (r : List Input) (ev : List Event) : (s.after o r ev).pt = s.pt := rfl
@[simp] theorem State.after_sw (s : State) (o : Byte) (r : List Input) (ev : List Event) : (s.after o r ev).sw = s.sw := rfl
@[simp] theorem State.after_dsp (s : State) (o : Byte) (r : List Input) (ev : List Event) : (s.after o r ev).dsp = s.dsp := rfl
@[simp] theorem State.after_rf (s : State) (o : Byte) (r : List Input) (ev : List Event) : (s.after o r ev).rf = s.rf := rfl
@[simp] theorem State.after_busy (s : State) (o : Byte) (r : List Input) (ev : List Event) : (s.after o r ev).seq.busy = s.seq.busy := rfl
@[simp] theorem State.after_op (s : State) (o : Byte) (r : List Input) (ev : List Event) : (s.after o r ev).seq.op = o := rfl
@[simp] theorem State.after_phase (s : State) (o : Byte) (r : List Input) (ev : List Event) : (s.after o r ev).seq.phase = s.seq.phase := rfl
@[simp] theorem State.after_cause (s : State) (o : Byte) (r : List Input) (ev : List Event) : (s.after o r ev).seq.cause = s.seq.cause := rfl
@[simp] theorem State.after_ovr (s : State) (o : Byte) (r : List Input) (ev : List Event) : (s.after o r ev).seq.ovr = s.seq.ovr := rfl
@[simp] theorem State.after_acc (s : State) (o : Byte) (r : List Input) (ev : List Event) : (s.after o r ev).seq.acc = s.seq.acc := rfl
@[simp] theorem State.after_polls (s : State) (o : Byte) (r : List Input) (ev : List Event) : (s.after o r ev).seq.polls = s.seq.polls := rfl
@[simp] theorem State.after_midRead (s : State) (o : Byte) (r : List Input) (ev : List Event) : (s.after o r ev).seq.midRead = s.seq.midRead := rfl
@[simp] theorem State.after_pinLow (s : State) (o : Byte) (r : List Input) (ev : List Event) : (s.after o r ev).seq.pinLow = s.seq.pinLow := rfl
@[simp] theorem State.after_inputs (s : State) (o : Byte) (r : List Input) (ev : List Event) : (s.after o r ev).env.inputs = r := rfl
@[simp] theorem State.after_trace (s : State) (o : Byte) (r : List Input) (ev : List Event) : (s.after o r ev).env.trace = s.env.trace ++ ev := rfl
@[simp] theorem State.after_hostReads (s : State) (o : Byte) (r : List Input) (ev : List Event) : (s.after o r ev).env.hostReads = s.env.hostReads := rfl
@[simp] theorem State.after_freeReads (s : State) (o : Byte) (r : List Input) (ev : List Event) : (s.after o r ev).env.freeReads = s.env.freeReads := rfl
@[simp] theorem State.after_epoch (s : State) (o : Byte) (r : List Input) (ev : List Event) : (s.after o r ev).env.epoch = s.env.epoch := rfl
@[simp] theorem State.after_rst (s : State) (o : Byte) (r : List Input) (ev : List Event) : (s.after o r ev).env.rst = s.env.rst := rfl

/-! ### `afterReset` -/

@[simp] theorem State.afterReset_cfg (s : State) (b : Bool) : (s.afterReset b).cfg = s.cfg := rfl
@[simp] theorem State.afterReset_seq (s : State) (b : Bool) : (s.afterReset b).seq = Seq.reset := rfl
@[simp] theorem State.afterReset_host (s : State) (b : Bool) : (s.afterReset b).host = HostRegs.reset := rfl
@[simp] theorem State.afterReset_pt (s : State) (b : Bool) : (s.afterReset b).pt = Ptc.reset := rfl
@[simp] theorem State.afterReset_sw (s : State) (b : Bool) : (s.afterReset b).sw = Swd.reset := rfl
@[simp] theorem State.afterReset_dsp (s : State) (b : Bool) : (s.afterReset b).dsp = Ftr.reset := rfl
@[simp] theorem State.afterReset_rf (s : State) (b : Bool) : (s.afterReset b).rf = Rfc.reset := rfl
@[simp] theorem State.afterReset_inputs (s : State) (b : Bool) : (s.afterReset b).env.inputs = s.env.inputs := rfl
@[simp] theorem State.afterReset_trace (s : State) (b : Bool) : (s.afterReset b).env.trace = s.env.trace := rfl
@[simp] theorem State.afterReset_hostReads (s : State) (b : Bool) : (s.afterReset b).env.hostReads = s.env.hostReads := rfl
@[simp] theorem State.afterReset_freeReads (s : State) (b : Bool) : (s.afterReset b).env.freeReads = s.env.freeReads := rfl
@[simp] theorem State.afterReset_epoch (s : State) (b : Bool) : (s.afterReset b).env.epoch = s.env.epoch + 1 := rfl
@[simp] theorem State.afterReset_rst (s : State) (b : Bool) : (s.afterReset b).env.rst = b := rfl

/-! ### Code words -/

/-- `CAUSE[7:4]` is 0 after every `raise`. -/
theorem Cause.word_middle (c : Cause) : c.word.extractLsb' 4 4 = 0 := by
  apply BitVec.eq_of_getLsbD_eq
  intro i hi
  simp only [Cause.word, BitVec.getLsbD_extractLsb', BitVec.getLsbD_append]
  simp [hi]

/-- `CODE` is the low four bits of the word. -/
theorem Cause.word_code (c : Cause) : c.word.extractLsb' 0 4 = c.code := by
  apply BitVec.eq_of_getLsbD_eq
  intro i hi
  simp only [Cause.word, BitVec.getLsbD_extractLsb', BitVec.getLsbD_append]
  simp [hi]

/-- `INFO` is the high byte of the word. -/
theorem Cause.word_info (c : Cause) : c.word.extractLsb' 8 8 = c.info := by
  apply BitVec.eq_of_getLsbD_eq
  intro i hi
  simp only [Cause.word, BitVec.getLsbD_extractLsb', BitVec.getLsbD_append]
  have h4 : ¬ 8 + i < 4 := by omega
  have h8 : ¬ 8 + i - 4 < 4 := by omega
  simp [hi, h4, h8, show 8 + i - 4 - 4 = i by omega]

/-- A cause is never the word of `OK`. -/
theorem Cause.code_ne_zero (c : Cause) : c.code ≠ 0 := by cases c <;> simp [Cause.code]

end Sys2Proof.Machine
end

