-- ==== Sys2Proof/Laws/Memory.lean ====
section
/-! SUPPORT. The byte memories: a read after a write gives the value written and every other byte reads as before
(for any list, canonical or not); every operation keeps the canonical form; the memories after reset have it. -/

namespace Sys2Proof.Machine

/-! ## Reading after writing -/

@[simp] theorem Memory.read?_nil (a : Nat) : Memory.read? [] a = none := rfl

theorem Memory.read?_cons (c : Host.Cell) (m : Memory) (a : Nat) :
    Memory.read? (c :: m) a = if a = c.1 then some c.2 else Memory.read? m a := by
  obtain ⟨k, v⟩ := c
  by_cases h : a = k
  · simp [Memory.read?, List.lookup, h]
  · simp [Memory.read?, List.lookup, h, beq_eq_false_iff_ne.mpr h]

/-- What a write does to every byte. -/
theorem Memory.read?_write (m : Memory) (a : Nat) (v : Byte) (b : Nat) :
    (m.write a v).read? b = if b = a then some v else m.read? b := by
  induction m with
  | nil => simp [Memory.write, Memory.read?_cons]
  | cons c rest ih =>
    unfold Memory.write
    split
    · simp [Memory.read?_cons]
    · split
      · rename_i h
        by_cases hb : b = a <;> simp [Memory.read?_cons, hb, ← h]
      · rename_i h1 h2
        simp only [Memory.read?_cons, ih]
        by_cases hc : b = c.1
        · have : b ≠ a := by omega
          simp [hc]; intro h; omega
        · simp [hc]

@[simp] theorem Memory.read?_write_same (m : Memory) (a : Nat) (v : Byte) : (m.write a v).read? a = some v := by
  simp [Memory.read?_write]

theorem Memory.read?_write_other (m : Memory) (a b : Nat) (v : Byte) (h : b ≠ a) :
    (m.write a v).read? b = m.read? b := by
  simp [Memory.read?_write, h]

/-- What writing consecutive bytes does to every byte. -/
theorem Memory.read?_writeBytes (m : Memory) (a : Nat) (vs : List Byte) (b : Nat) :
    (m.writeBytes a vs).read? b = if a ≤ b ∧ b < a + vs.length then vs[b - a]? else m.read? b := by
  induction vs generalizing m a with
  | nil =>
    rw [if_neg (by simp only [List.length_nil]; omega)]
    rfl
  | cons v vs ih =>
    simp only [Memory.writeBytes, ih, Memory.read?_write, List.length_cons]
    by_cases h : b = a
    · subst h; simp
    · by_cases h1 : a ≤ b ∧ b < a + (vs.length + 1)
      · have h2 : a + 1 ≤ b ∧ b < a + 1 + vs.length := by omega
        rw [if_pos h1, if_pos h2, show b - a = (b - (a + 1)) + 1 by omega]
        simp
      · have h2 : ¬ (a + 1 ≤ b ∧ b < a + 1 + vs.length) := by omega
        rw [if_neg h1, if_neg h2, if_neg h]

theorem Memory.read?_append (m n : Memory) (a : Nat) :
    Memory.read? (m ++ n) a = (m.read? a).or (n.read? a) := by
  induction m with
  | nil => simp
  | cons c rest ih =>
    simp only [List.cons_append, Memory.read?_cons, ih]
    split <;> simp

/-- What clearing the first `n` bytes does to every byte. -/
theorem Memory.read?_zeroFill (m : Memory) (n a : Nat) :
    (m.zeroFill n).read? a = if a < n then some 0 else m.read? a := by
  have hz : ∀ k : List Nat, Memory.read? (k.map fun j => (j, (0 : Byte))) a
      = if a ∈ k then some 0 else none := by
    intro k
    induction k with
    | nil => simp
    | cons x xs ih =>
      simp only [List.map_cons, Memory.read?_cons, ih, List.mem_cons]
      by_cases h : a = x <;> simp [h]
  have hf : ¬ a < n → Memory.read? (m.filter fun c => n ≤ c.1) a = m.read? a := by
    intro ha
    induction m with
    | nil => simp
    | cons c rest ih =>
      by_cases hc : n ≤ c.1
      · simp [hc, Memory.read?_cons, ih]
      · have : a ≠ c.1 := by omega
        simp [hc, Memory.read?_cons, ih, this]
  rw [Memory.zeroFill, Memory.read?_append, hz]
  by_cases h : a < n
  · simp [h]
  · simp [h, hf h]

/-! ## The canonical form -/

/-- Indices strictly rising. -/
abbrev Memory.Rising (m : Memory) : Prop := m.Pairwise (fun c d => c.1 < d.1)

/-- Which indices a write lists. -/
theorem Memory.mem_write {m : Memory} {a : Nat} {v : Byte} {c : Host.Cell} (h : c ∈ m.write a v) :
    c = (a, v) ∨ c ∈ m := by
  induction m with
  | nil => simpa [Memory.write] using h
  | cons d rest ih =>
    unfold Memory.write at h
    split at h
    · simpa using h
    · split at h
      · simp only [List.mem_cons] at h ⊢; tauto
      · simp only [List.mem_cons] at h ⊢
        rcases h with h | h
        · tauto
        · rcases ih h with h | h <;> tauto

theorem Memory.write_rising {m : Memory} (hm : m.Rising) (a : Nat) (v : Byte) : (m.write a v).Rising := by
  induction m with
  | nil => simp [Memory.write, Memory.Rising]
  | cons d rest ih =>
    obtain ⟨hd, hr⟩ := List.pairwise_cons.mp hm
    unfold Memory.write
    split
    · rename_i h
      refine List.pairwise_cons.mpr ⟨?_, hm⟩
      intro c hc
      rcases List.mem_cons.mp hc with rfl | hc
      · exact h
      · exact lt_trans h (hd c hc)
    · split
      · rename_i h
        refine List.pairwise_cons.mpr ⟨?_, hr⟩
        intro c hc
        simpa [h] using hd c hc
      · refine List.pairwise_cons.mpr ⟨?_, ih hr⟩
        intro c hc
        rcases Memory.mem_write hc with rfl | hc
        · show d.1 < a
          omega
        · exact hd c hc

theorem Memory.write_wellFormed {m : Memory} {size : Nat} (hm : m.WellFormed size) {a : Nat} (ha : a < size)
    (v : Byte) : (m.write a v).WellFormed size := by
  refine ⟨Memory.write_rising hm.1 a v, ?_⟩
  intro c hc
  rcases Memory.mem_write hc with rfl | hc
  · exact ha
  · exact hm.2 c hc

theorem Memory.writeBytes_rising {m : Memory} (hm : m.Rising) (a : Nat) (vs : List Byte) :
    (m.writeBytes a vs).Rising := by
  induction vs generalizing m a with
  | nil => exact hm
  | cons v vs ih => exact ih (Memory.write_rising hm a v) (a + 1)

theorem Memory.writeBytes_wellFormed {m : Memory} {size : Nat} (hm : m.WellFormed size) (a : Nat) (vs : List Byte)
    (h : a + vs.length ≤ size) : (m.writeBytes a vs).WellFormed size := by
  induction vs generalizing m a with
  | nil => exact hm
  | cons v vs ih =>
    simp only [List.length_cons] at h
    exact ih (Memory.write_wellFormed hm (by omega) v) (a + 1) (by omega)

theorem Memory.zeroFill_rising {m : Memory} (hm : m.Rising) (n : Nat) : (m.zeroFill n).Rising := by
  refine List.pairwise_append.mpr ⟨?_, hm.filter _, ?_⟩
  · exact List.pairwise_map.mpr List.pairwise_lt_range
  · intro c hc d hd
    simp only [List.mem_map, List.mem_range] at hc
    obtain ⟨j, hj, rfl⟩ := hc
    have := (List.mem_filter.mp hd).2
    simp only [decide_eq_true_eq] at this
    exact lt_of_lt_of_le hj this

theorem Memory.zeroFill_wellFormed {m : Memory} {size : Nat} (hm : m.WellFormed size) {n : Nat} (hn : n ≤ size) :
    (m.zeroFill n).WellFormed size := by
  refine ⟨Memory.zeroFill_rising hm.1 n, ?_⟩
  intro c hc
  rcases List.mem_append.mp hc with hc | hc
  · simp only [List.mem_map, List.mem_range] at hc
    obtain ⟨j, hj, rfl⟩ := hc
    exact lt_of_lt_of_le hj hn
  · exact hm.2 c (List.mem_filter.mp hc).1

theorem blit_rising (font : List Glyph) {m : Memory} (hm : m.Rising) (a : Nat) (text : List Byte) :
    Memory.Rising (blit font m a text) := by
  induction text generalizing m a with
  | nil => exact hm
  | cons c cs ih =>
    unfold blit
    apply ih
    split
    · exact Memory.writeBytes_rising hm _ _
    · exact hm

/-- A blit that ends inside the memory keeps the form: its last written index is `a + 6 * (n − 1) + 4`. -/
theorem blit_wellFormed (font : List Glyph) {m : Memory} {size : Nat} (hm : m.WellFormed size) (a : Nat)
    (text : List Byte) (h : text = [] ∨ a + 6 * (text.length - 1) + 4 < size) :
    Memory.WellFormed (blit font m a text) size := by
  induction text generalizing m a with
  | nil => exact hm
  | cons c cs ih =>
    simp only [List.length_cons, reduceCtorEq, false_or] at h
    unfold blit
    apply ih
    · split
      · apply Memory.writeBytes_wellFormed hm
        simp only [Vector.length_toList]
        omega
      · exact hm
    · cases cs with
      | nil => left; rfl
      | cons d ds => right; simp only [List.length_cons] at h ⊢; omega

/-- `BUF` and `FB` have the canonical form after reset. -/
theorem State.reset_memories :
    State.reset.host.buf.WellFormed 256 ∧ State.reset.dsp.fb.WellFormed 1024 := by
  constructor <;> exact ⟨List.Pairwise.nil, by intro c hc; cases hc⟩

end Sys2Proof.Machine
end

