-- ==== Sys2Proof/Laws/Ops.lean ====
section
/-! SUPPORT. One lemma per shared operation that says once what it can do: running a list of steps, a step that asks
the environment, a guard, the last step, an outside action. Claims cite these instead of unfolding the operations. -/

namespace Sys2Proof.Machine

/-! ## Running steps -/

@[simp] theorem runSteps_nil (k : Nat) (s : State) : runSteps [] k s = .go k s := rfl

@[simp] theorem runSteps_skip (m : MicroStep) (ms : List MicroStep) (k : Nat) (s : State) :
    runSteps (m :: ms) (k + 1) s = runSteps ms k s.nextPhase := rfl

/-- No outside action jumps in before the next step. -/
theorem absorb_quiet (l : List Input) (s : State) (h : quiet l = true) : absorb l s = .go 0 s := by
  unfold absorb
  split
  · cases h
  · cases h
  · rfl

/-- A `pass` lets SEQ take its next step before what follows. -/
@[simp] theorem absorb_pass (l : List Input) (s : State) : absorb (.pass :: l) s = .go 0 (s.withInputs l) := rfl

/-- A step with a `pass` before it. -/
theorem runSteps_pass (m : MicroStep) (ms : List MicroStep) (s : State) (l : List Input)
    (h : s.env.inputs = .pass :: l) :
    runSteps (m :: ms) 0 s =
      match m (s.withInputs l) with
      | .go k t => runSteps ms k t.nextPhase
      | .ended t => .ended t
      | .wait t => .wait t := by
  cases hm : m (s.withInputs l) <;> simp [runSteps, h, hm]

/-- A step before which an outside action other than a reset lands. -/
theorem runSteps_early (m : MicroStep) (ms : List MicroStep) (s : State) (e : External) (l : List Input)
    (h : s.env.inputs = .early e :: l) (hr : s.resetBy e = false)
    (hl : ((s.withInputs l).external e).env.inputs = l) :
    runSteps (m :: ms) 0 s = runSteps (m :: ms) 0 ((s.withInputs l).external e) := by
  simp [runSteps, h, hl, absorb, hr]

/-- A reset that lands before a step ends the operation: no further event. -/
theorem runSteps_reset (m : MicroStep) (ms : List MicroStep) (s : State) (l : List Input)
    (h : s.env.inputs = .early (.rst true) :: l) :
    runSteps (m :: ms) 0 s = .ended ((s.withInputs l).afterReset true) := by
  simp [runSteps, h, absorb, State.resetBy, State.external]

/-- One step, when no outside action jumps in before it. -/
theorem runSteps_cons (m : MicroStep) (ms : List MicroStep) (s : State) (h : quiet s.env.inputs = true) :
    runSteps (m :: ms) 0 s =
      match m s with
      | .go k t => runSteps ms k t.nextPhase
      | .ended t => .ended t
      | .wait t => .wait t := by
  cases hm : m s <;> simp [runSteps, absorb_quiet _ _ h, hm]

/-- A step that lets SEQ go on. -/
theorem runSteps_go {m : MicroStep} {ms : List MicroStep} {s t : State} {k : Nat}
    (h : quiet s.env.inputs = true) (hm : m s = .go k t) :
    runSteps (m :: ms) 0 s = runSteps ms k t.nextPhase := by
  rw [runSteps_cons m ms s h, hm]

/-- A step that ends the operation. -/
theorem runSteps_ended {m : MicroStep} {ms : List MicroStep} {s t : State}
    (h : quiet s.env.inputs = true) (hm : m s = .ended t) :
    runSteps (m :: ms) 0 s = .ended t := by
  rw [runSteps_cons m ms s h, hm]

/-- A step that waits. -/
theorem runSteps_wait {m : MicroStep} {ms : List MicroStep} {s t : State}
    (h : quiet s.env.inputs = true) (hm : m s = .wait t) :
    runSteps (m :: ms) 0 s = .wait t := by
  rw [runSteps_cons m ms s h, hm]

/-- Steps in two parts: what the first part leaves to pass over is passed over in the second. -/
theorem runSteps_append (a b : List MicroStep) (k : Nat) (s : State) :
    runSteps (a ++ b) k s =
      match runSteps a k s with
      | .go k' t => runSteps b k' t
      | .ended t => .ended t
      | .wait t => .wait t := by
  induction a generalizing k s with
  | nil => rfl
  | cons m ms ih =>
    cases k with
    | succ k => exact ih k s.nextPhase
    | zero =>
      simp only [List.cons_append, runSteps]
      cases absorb s.env.inputs s with
      | go k' s1 =>
        dsimp only
        cases m s1 with
        | go k'' s2 => exact ih k'' s2.nextPhase
        | ended s2 => rfl
        | wait s2 => rfl
      | ended s1 => rfl
      | wait s1 => rfl

/-- Passing over `k` steps of a list at least that long. -/
theorem runSteps_passOver (ms : List MicroStep) (k : Nat) (s : State) (h : k ≤ ms.length) :
    runSteps ms k s = runSteps (ms.drop k) 0 { s with seq.phase := s.seq.phase + k } := by
  induction ms generalizing k s with
  | nil =>
    have : k = 0 := by simpa using h
    subst this
    rfl
  | cons m ms ih =>
    cases k with
    | zero => rfl
    | succ k =>
      rw [runSteps_skip, ih k s.nextPhase (by simpa using h)]
      simp only [List.drop_succ_cons, State.nextPhase]
      congr 3
      omega

/-! ## What a run keeps -/

/-- The state a step leaves, whatever comes of it. -/
def Stepped.current : Stepped → State
  | .go _ s => s
  | .ended s => s
  | .wait s => s

@[simp] theorem Stepped.current_go (k : Nat) (s : State) : (Stepped.go k s).current = s := rfl
@[simp] theorem Stepped.current_ended (s : State) : (Stepped.ended s).current = s := rfl
@[simp] theorem Stepped.current_wait (s : State) : (Stepped.wait s).current = s := rfl

/-- A property that taking an input and any outside action keep is kept by whatever comes before a step. -/
theorem absorb_keeps {P : State → Prop} (hin : ∀ s l, P s → P (s.withInputs l))
    (hext : ∀ s e, P s → P (s.external e)) (l : List Input) (s : State) (h : P s) : P (absorb l s).current := by
  induction l generalizing s with
  | nil => exact h
  | cons i rest ih =>
    cases i with
    | answer a => exact h
    | pass => exact hin _ rest h
    | ext e => exact h
    | early e =>
      unfold absorb
      dsimp only
      split
      · exact hext _ e (hin _ rest h)
      · exact ih _ (hext _ e (hin _ rest h))

/-- The same for a step that may ask many times: `k` need keep it on recorded answers only. -/
theorem serve_keeps {P : State → Prop} (hin : ∀ s l, P s → P (s.withInputs l))
    (hext : ∀ s e, P s → P (s.external e)) {prim : State → Prim} {k : Answer → State → Served}
    (hk : ∀ s a, P s → match k a (s.record (prim s) a) with
      | .again t => P t
      | .leave r => P r.current)
    (hprim : ∀ s l, prim (s.withInputs l) = prim s)
    (l : List Input) (s : State) (h : P s) : P (serve prim k l s).current := by
  induction l generalizing s with
  | nil => exact hin _ [] h
  | cons i rest ih =>
    cases i with
    | answer a =>
      have := hk (s.withInputs rest) ((prim s).returns a) (hin _ rest h)
      rw [hprim] at this
      unfold serve
      dsimp only
      cases hr : k ((prim s).returns a) ((s.withInputs rest).record (prim s) ((prim s).returns a)) with
      | again t => rw [hr] at this; exact ih t this
      | leave r => rw [hr] at this; exact this
    | pass => exact ih _ (hin _ rest h)
    | ext e =>
      unfold serve
      dsimp only
      split
      · exact hext _ e (hin _ rest h)
      · exact ih _ (hext _ e (hin _ rest h))
    | early e =>
      unfold serve
      dsimp only
      split
      · exact hext _ e (hin _ rest h)
      · exact ih _ (hext _ e (hin _ rest h))

/-- A property every step of a list keeps is kept by running the list. -/
theorem runSteps_keeps {P : State → Prop} (hin : ∀ s l, P s → P (s.withInputs l))
    (hext : ∀ s e, P s → P (s.external e)) (hphase : ∀ s, P s → P s.nextPhase)
    (ms : List MicroStep) (hm : ∀ m ∈ ms, ∀ s, P s → P (m s).current)
    (k : Nat) (s : State) (h : P s) : P (runSteps ms k s).current := by
  induction ms generalizing k s with
  | nil => exact h
  | cons m ms ih =>
    have ih' := ih fun m' hm' => hm m' (List.mem_cons_of_mem _ hm')
    cases k with
    | succ k => exact ih' k _ (hphase s h)
    | zero =>
      simp only [runSteps]
      have ha := absorb_keeps hin hext s.env.inputs s h
      cases hr : absorb s.env.inputs s with
      | go k' s1 =>
        rw [hr] at ha
        dsimp only
        have hms := hm m (List.mem_cons_self ..) s1 ha
        cases hms' : m s1 with
        | go k'' s2 => rw [hms'] at hms; exact ih' k'' _ (hphase _ hms)
        | ended s2 => rw [hms'] at hms; exact hms
        | wait s2 => rw [hms'] at hms; exact hms
      | ended s1 => rw [hr] at ha; exact ha
      | wait s1 => rw [hr] at ha; exact ha

/-! ## Steps that ask the environment -/

@[simp] theorem serve_nil (prim : State → Prim) (k : Answer → State → Served) (s : State) :
    serve prim k [] s = .wait (s.withInputs []) := rfl

theorem serve_answer (prim : State → Prim) (k : Answer → State → Served) (a : Answer) (rest : List Input)
    (s : State) :
    serve prim k (.answer a :: rest) s =
      match k ((prim s).returns a) ((s.withInputs rest).record (prim s) ((prim s).returns a)) with
      | .again t => serve prim k rest t
      | .leave r => r := rfl

@[simp] theorem serve_pass (prim : State → Prim) (k : Answer → State → Served) (rest : List Input) (s : State) :
    serve prim k (.pass :: rest) s = serve prim k rest (s.withInputs rest) := rfl

theorem serve_ext (prim : State → Prim) (k : Answer → State → Served) (e : External) (rest : List Input)
    (s : State) (h : s.resetBy e = false) :
    serve prim k (.ext e :: rest) s = serve prim k rest ((s.withInputs rest).external e) := by
  simp [serve, h]

theorem serve_early (prim : State → Prim) (k : Answer → State → Served) (e : External) (rest : List Input)
    (s : State) (h : s.resetBy e = false) :
    serve prim k (.early e :: rest) s = serve prim k rest ((s.withInputs rest).external e) := by
  simp [serve, h]

/-- Asserting the reset input ends a waiting step. -/
theorem serve_reset (prim : State → Prim) (k : Answer → State → Served) (i : Input) (rest : List Input)
    (s : State) (h : i = .ext (.rst true) ∨ i = .early (.rst true)) :
    serve prim k (i :: rest) s = .ended ((s.withInputs rest).afterReset true) := by
  rcases h with rfl | rfl <;> rfl

/-- A step that asks once, answered at once. -/
theorem ask_answer {prim : State → Prim} {k : Answer → State → Stepped} {s : State} {a : Answer}
    {rest : List Input} (h : s.env.inputs = .answer a :: rest) :
    ask prim k s = k ((prim s).returns a)
      ((s.withInputs rest).record (prim s) ((prim s).returns a)) := by
  simp [ask, h, serve_answer]

/-- Without an answer the step waits. -/
theorem ask_nothing {prim : State → Prim} {k : Answer → State → Stepped} {s : State} (h : s.env.inputs = []) :
    ask prim k s = .wait s := by
  rw [ask, h, serve_nil, ← h, State.withInputs_self]

/-- An acknowledged two-wire access. -/
theorem twAccess_ack {prim : State → Prim} {info : Byte} {f : BitVec 24 → State → State} {s : State} {a : Answer}
    {rest : List Input} (h : s.env.inputs = .answer a :: rest) (ha : ((prim s).returns a).ack = true) :
    twAccess prim info f s = .go 0 (f ((prim s).returns a).data
      ((s.withInputs rest).record (prim s) ((prim s).returns a))) := by
  simp [twAccess, ask_answer h, ha]

/-- A two-wire access that is not acknowledged. -/
theorem twAccess_nack {prim : State → Prim} {info : Byte} {f : BitVec 24 → State → State} {s : State} {a : Answer}
    {rest : List Input} (h : s.env.inputs = .answer a :: rest) (ha : ((prim s).returns a).ack = false) :
    twAccess prim info f s = .ended (((s.withInputs rest).record (prim s)
      ((prim s).returns a)).raise (.busError info)) := by
  simp [twAccess, ask_answer h, ha]

/-- A byte of the register bus. -/
theorem spiStep_answer {b : State → Byte} {f : State → State} {s : State} {a : Answer} {rest : List Input}
    (h : s.env.inputs = .answer a :: rest) :
    spiStep b f s = .go 0 (f ((s.withInputs rest).record (.spiXfer (b s))
      ((Prim.spiXfer (b s)).returns a))) := by
  simp [spiStep, ask_answer h]

/-! ## Answers -/

@[simp] theorem Prim.returns_twWrite8 (a : TwAddr) (r v : Byte) (x : Answer) :
    (Prim.twWrite8 a r v).returns x = ⟨x.ack, 0⟩ := rfl

@[simp] theorem Prim.returns_twWriteBlock (a : TwAddr) (l : List Byte) (x : Answer) :
    (Prim.twWriteBlock a l).returns x = ⟨x.ack, 0⟩ := rfl

@[simp] theorem Prim.returns_twRead24 (a : TwAddr) (r : Byte) (x : Answer) :
    (Prim.twRead24 a r).returns x = x := rfl

/-- Narrowing and widening a 24-bit datum keeps its low bits. -/
theorem low_bits (d : BitVec 24) (n : Nat) :
    BitVec.ofNat 24 (d.toNat % 2 ^ n) = (d.setWidth n).setWidth 24 := by
  apply BitVec.eq_of_toNat_eq
  simp only [BitVec.toNat_ofNat, BitVec.toNat_setWidth]

@[simp] theorem Prim.returns_twRead16 (a : TwAddr) (r : Byte) (x : Answer) :
    (Prim.twRead16 a r).returns x = ⟨x.ack, (x.data.setWidth 16).setWidth 24⟩ := by
  simp only [Prim.returns, low_bits _ 16]

@[simp] theorem Prim.returns_twReadS16 (a : TwAddr) (r : Byte) (x : Answer) :
    (Prim.twReadS16 a r).returns x = ⟨x.ack, (x.data.setWidth 16).setWidth 24⟩ := by
  simp only [Prim.returns, low_bits _ 16]

@[simp] theorem Prim.returns_spiXfer (b : Byte) (x : Answer) :
    (Prim.spiXfer b).returns x = ⟨true, (x.data.setWidth 8).setWidth 24⟩ := by
  simp only [Prim.returns, low_bits _ 8]

@[simp] theorem Prim.returns_pinRead (p : PinId) (x : Answer) :
    (Prim.pinRead p).returns x = ⟨true, (BitVec.ofBool (x.data.getLsbD 0)).setWidth 24⟩ := by
  simp only [Prim.returns, low_bits _ 1, Answer.mk.injEq, true_and]
  apply BitVec.eq_of_getLsbD_eq
  intro i hi
  cases i with
  | zero => simp
  | succ i => simp

/-! ## Internal steps -/

@[simp] theorem act_go (f : State → State) (s : State) : act f s = .go 0 (f s) := rfl

@[simp] theorem perform_go (prim : State → Prim) (f : State → State) (s : State) :
    perform prim f s = .go 0 (f (s.record (prim s) Answer.nothing)) := rfl

@[simp] theorem finish_ended (f : State → State) (s : State) : finish f s = .ended (f s).done := rfl

theorem guardStep_some {f : State → Option Cause} {s : State} {c : Cause} (h : f s = some c) :
    guardStep f s = .ended (s.raise c) := by
  simp [guardStep, h]

theorem guardStep_none {f : State → Option Cause} {s : State} (h : f s = none) : guardStep f s = .go 0 s := by
  simp [guardStep, h]

theorem needsInit_unset {flag : State → Bool} {u : Byte} {s : State} (h : flag s = false) :
    needsInit flag u s = .ended (s.raise (.notInitialized u)) := by
  simp [needsInit, guardStep, h]

theorem needsInit_set {flag : State → Bool} {u : Byte} {s : State} (h : flag s = true) :
    needsInit flag u s = .go 0 s := by
  simp [needsInit, guardStep, h]

/-! ## Starting and ending -/

/-- An idle ESPB starts an operation at its first step. -/
theorem launch_idle (s : State) (opc : Byte) (program : State → List MicroStep) (h : s.seq.busy = false) :
    s.launch opc program = (runSteps (program (s.start opc)) 0 (s.start opc)).state := by
  simp [State.launch, h]

/-- An operation in flight goes on at the step it is at. -/
theorem launch_busy (s : State) (opc : Byte) (program : State → List MicroStep) (h : s.seq.busy = true) :
    s.launch opc program = (runSteps ((program s).drop (s.seq.phase - 1)) 0 s).state := by
  simp [State.launch, h]

@[simp] theorem Stepped.state_go (k : Nat) (s : State) : (Stepped.go k s).state = s.done := rfl
@[simp] theorem Stepped.state_ended (s : State) : (Stepped.ended s).state = s := rfl
@[simp] theorem Stepped.state_wait (s : State) : (Stepped.wait s).state = s := rfl

/-! ## Outside actions -/

/-- What an outside action other than a reset can change: the record of host reads, and, idle, the operand registers,
the sticky bit and the pending bit. -/
theorem external_frame (s : State) (e : External) (h : s.resetBy e = false) :
    (s.external e).cfg = s.cfg ∧ (s.external e).pt = s.pt ∧ (s.external e).sw = s.sw ∧
    (s.external e).dsp = s.dsp ∧ (s.external e).rf = { s.rf with rxpend := (s.external e).rf.rxpend } ∧
    (s.external e).seq = { s.seq with ovr := (s.external e).seq.ovr } ∧
    (s.external e).env.trace = s.env.trace ∧ (s.external e).env.inputs = s.env.inputs ∧
    (s.external e).env.epoch = s.env.epoch ∧ (s.external e).env.rst = s.env.rst := by
  have hw : ∀ (t : State) (i : HostIndex) (v : Word), (t.hostWrite i v).cfg = t.cfg ∧ (t.hostWrite i v).pt = t.pt ∧
      (t.hostWrite i v).sw = t.sw ∧ (t.hostWrite i v).dsp = t.dsp ∧
      (t.hostWrite i v).rf = { t.rf with rxpend := (t.hostWrite i v).rf.rxpend } ∧
      (t.hostWrite i v).seq = { t.seq with ovr := (t.hostWrite i v).seq.ovr } ∧
      (t.hostWrite i v).env = t.env := by
    intro t i v
    unfold State.hostWrite State.hostWriteBusy State.hostWriteIdle
    dsimp only
    repeat' split
    all_goals simp
  have hr : ∀ t : State, t.rxEvent.cfg = t.cfg ∧ t.rxEvent.pt = t.pt ∧ t.rxEvent.sw = t.sw ∧
      t.rxEvent.dsp = t.dsp ∧ t.rxEvent.rf = { t.rf with rxpend := t.rxEvent.rf.rxpend } ∧
      t.rxEvent.seq = t.seq ∧ t.rxEvent.env = t.env := by
    intro t
    unfold State.rxEvent
    split <;> simp
  cases e with
  | hostRead i =>
    simp only [State.external, State.hostRead]
    split <;> simp
  | hostWrite i v =>
    obtain ⟨h1, h2, h3, h4, h5, h6, h7⟩ := hw s i v
    simp only [State.external]
    exact ⟨h1, h2, h3, h4, h5, h6, by simp only [h7, and_self]⟩
  | rxEvent n =>
    obtain ⟨h1, h2, h3, h4, h5, h6, h7⟩ := hr s
    simp only [State.external]
    exact ⟨h1, h2, h3, h4, h5, by rw [h6], by simp only [h7, and_self]⟩
  | hostWriteRx i v n =>
    obtain ⟨h1, h2, h3, h4, h5, h6, h7⟩ := hw s i v
    obtain ⟨g1, g2, g3, g4, g5, g6, g7⟩ := hr (s.hostWrite i v)
    simp only [State.external]
    refine ⟨g1.trans h1, g2.trans h2, g3.trans h3, g4.trans h4, ?_, ?_, by simp only [g7, h7, and_self]⟩
    · rw [g5, h5]
    · rw [g6, h6]
  | rst b =>
    simp [State.external, h]

/-- While an operation is in flight an outside action other than reset leaves the operand registers and `BUF`. -/
theorem external_busy_host (s : State) (e : External) (h : s.resetBy e = false) (hb : s.seq.busy = true) :
    (s.external e).host = s.host := by
  have hw : ∀ (i : HostIndex) (v : Word), (s.hostWrite i v).host = s.host := by
    intro i v
    simp only [State.hostWrite, hb, if_true, State.hostWriteBusy]
    repeat' split
    all_goals rfl
  cases e with
  | hostRead i =>
    simp only [State.external, State.hostRead]
    split <;> rfl
  | hostWrite i v => exact hw i v
  | rxEvent n =>
    simp only [State.external, State.rxEvent]
    split <;> rfl
  | hostWriteRx i v n =>
    simp only [State.external, State.rxEvent]
    split <;> exact hw i v
  | rst b =>
    simp [State.external, h]

/-! ## The asserted reset input -/

/-- A reset puts every register at its reset value. -/
theorem State.afterReset_atReset (s : State) (b : Bool) : (s.afterReset b).AtReset :=
  ⟨rfl, rfl, rfl, rfl, rfl, rfl⟩

/-- While the reset input is asserted an outside action leaves every register at its reset value, and adds no event. -/
theorem externalHeld_frame (s : State) (e : External) (h : s.AtReset) :
    (s.externalHeld e).AtReset ∧ (s.externalHeld e).cfg = s.cfg ∧ (s.externalHeld e).env.trace = s.env.trace ∧
    (s.externalHeld e).env.inputs = s.env.inputs := by
  cases e with
  | hostRead i =>
    simp only [State.externalHeld, State.hostRead]
    split <;> exact ⟨h, rfl, rfl, rfl⟩
  | hostWrite i v => exact ⟨h, rfl, rfl, rfl⟩
  | rxEvent n => exact ⟨h, rfl, rfl, rfl⟩
  | hostWriteRx i v n => exact ⟨h, rfl, rfl, rfl⟩
  | rst b => exact ⟨s.afterReset_atReset b, rfl, rfl, rfl⟩

/-- A held ESPB takes its next input and keeps every register at its reset value. -/
theorem held_frame (s : State) (h : s.AtReset) :
    s.held.AtReset ∧ s.held.cfg = s.cfg ∧ s.held.env.trace = s.env.trace ∧ s.held.env.inputs = s.env.inputs.tail := by
  unfold State.held
  split
  · rename_i hnil
    exact ⟨h, rfl, rfl, by rw [hnil]; rfl⟩
  · rename_i hcons
    exact ⟨h, rfl, rfl, by rw [hcons]; rfl⟩
  · rename_i hcons
    exact ⟨h, rfl, rfl, by rw [hcons]; rfl⟩
  · rename_i e rest hcons
    rw [hcons]
    exact externalHeld_frame (s.withInputs rest) e h
  · rename_i e rest hcons
    rw [hcons]
    exact externalHeld_frame (s.withInputs rest) e h

end Sys2Proof.Machine
end

