-- ==== Sys2Proof/Laws/PerInstr.lean ====
section
/-! SUPPORT. Per operation: the encoder writes a word whose upper field is zero and whose opcode is the operation's,
and the decoder reads the operation back. -/

namespace Sys2Proof.Laws

/-- The command word of `i` has `ZERO` = 0, `OPC` its opcode, and decodes to `i`. -/
def RoundTrip.Statement (i : Instr) : Prop :=
  zeroField (encode i) = 0 ∧ opcField (encode i) = opcodeOf i ∧ decode (encode i) = .ok i

/-- `PT.INIT`. -/
theorem RoundTrip.ptInit : RoundTrip.Statement .ptInit := by
  refine ⟨?_, ?_, ?_⟩ <;> rfl

/-- `PT.READT`. -/
theorem RoundTrip.ptReadT : RoundTrip.Statement .ptReadT := by
  refine ⟨?_, ?_, ?_⟩ <;> rfl

/-- `PT.READP`. -/
theorem RoundTrip.ptReadP : RoundTrip.Statement .ptReadP := by
  refine ⟨?_, ?_, ?_⟩ <;> rfl

/-- `SW.READT`. -/
theorem RoundTrip.swReadT : RoundTrip.Statement .swReadT := by
  refine ⟨?_, ?_, ?_⟩ <;> rfl

/-- `SW.READH`. -/
theorem RoundTrip.swReadH : RoundTrip.Statement .swReadH := by
  refine ⟨?_, ?_, ?_⟩ <;> rfl

/-- `SW.SETCAL`. -/
theorem RoundTrip.swSetCal : RoundTrip.Statement .swSetCal := by
  refine ⟨?_, ?_, ?_⟩ <;> rfl

/-- `DSP.INIT`. -/
theorem RoundTrip.dspInit : RoundTrip.Statement .dspInit := by
  refine ⟨?_, ?_, ?_⟩ <;> rfl

/-- `DSP.CLEAR`. -/
theorem RoundTrip.dspClear : RoundTrip.Statement .dspClear := by
  refine ⟨?_, ?_, ?_⟩ <;> rfl

/-- `DSP.SHOWSTR`. -/
theorem RoundTrip.dspShowStr : RoundTrip.Statement .dspShowStr := by
  refine ⟨?_, ?_, ?_⟩ <;> rfl

/-- `DSP.SHOWNUM`. -/
theorem RoundTrip.dspShowNum : RoundTrip.Statement .dspShowNum := by
  refine ⟨?_, ?_, ?_⟩ <;> rfl

/-- `RF.INIT`. -/
theorem RoundTrip.rfInit : RoundTrip.Statement .rfInit := by
  refine ⟨?_, ?_, ?_⟩ <;> rfl

/-- `RF.SEND`. -/
theorem RoundTrip.rfSend : RoundTrip.Statement .rfSend := by
  refine ⟨?_, ?_, ?_⟩ <;> rfl

/-- `RF.ONRECV`. -/
theorem RoundTrip.rfOnRecv : RoundTrip.Statement .rfOnRecv := by
  refine ⟨?_, ?_, ?_⟩ <;> rfl

end Sys2Proof.Laws
end

