-- ==== Sys2Proof/Laws/Units.lean ====
section
/-! SUPPORT. What the units' shared steps can do, once each: delays, the single-wire wait loop, the blit, decimal
digits. -/

namespace Sys2Proof.Machine

/-! ## Delays -/

@[simp] theorem delayMsStep_go (n : State → Nat) (s : State) :
    delayMsStep n s = .go 0 (s.record (.delayMs (n s)) Answer.nothing) := rfl

@[simp] theorem delayUsStep_go (n : Nat) (s : State) :
    delayUsStep n s = .go 0 (s.record (.delayUs n) Answer.nothing) := rfl

/-! ## The wait loop of SWD -/

/-- The level of an answer as a `PinRead` returns it. -/
theorem level_returns (p : PinId) (a : Answer) : ((Prim.pinRead p).returns a).level = a.data.getLsbD 0 := by
  simp [Answer.level]

/-- `s` after reading the pin once for each of the answers `as`, with `rest` still to come and `n` failed reads. -/
def State.afterReads (s : State) (as : List Answer) (rest : List Input) (n : Nat) : State :=
  { s with
    seq := { s.seq with polls := n }
    env := { s.env with
      inputs := rest, trace := s.env.trace ++ as.map fun a => pinEvent s.pin (a.data.getLsbD 0) } }

/-- One more read. -/
theorem State.afterReads_record (s : State) (as : List Answer) (a : Answer) (r rest : List Input) (n : Nat) :
    (((s.afterReads as r n).withInputs rest).record (.pinRead s.pin) ((Prim.pinRead s.pin).returns a))
      = s.afterReads (as ++ [a]) rest n := by
  simp [State.afterReads, State.withInputs, State.record, pinEvent]

/-- The loop leaves at the first other level, if the reads before it stay within the bound. -/
theorem waitWhile_exit (stay : Bool) (id : Byte) (s : State) (as : List Answer) (a : Answer) (rest : List Input)
    (hin : s.env.inputs = answers as ++ .answer a :: rest)
    (has : ∀ x ∈ as, x.data.getLsbD 0 = stay) (ha : a.data.getLsbD 0 ≠ stay)
    (hb : ∀ n, s.cfg.swPollMax = some n → s.seq.polls + as.length < n) :
    waitWhile stay id s = .go 0 (s.afterReads (as ++ [a]) rest 0) := by
  unfold waitWhile
  rw [hin]
  suffices h : ∀ (before : List Answer) (later : List Answer) (r : List Input), (∀ x ∈ later, x ∈ as) →
      before.length + later.length = as.length →
      serve (fun t => Prim.pinRead t.pin)
        (fun a t =>
          if a.level ≠ stay then .leave (.go 0 { t with seq := { t.seq with polls := 0 } })
          else
            let n := t.seq.polls + 1
            if t.cfg.swPollMax = some n then
              .leave (.ended ({ t with sw := { t.sw with stat := .timeout } }.raise (.timeout id)))
            else .again { t with seq := { t.seq with polls := n } })
        (answers later ++ .answer a :: rest) (s.afterReads before r (s.seq.polls + before.length))
      = .go 0 (s.afterReads (before ++ later ++ [a]) rest 0) by
    have := h [] as s.env.inputs (fun x hx => hx) (by simp)
    simpa [State.afterReads] using this
  intro before later
  induction later generalizing before with
  | nil =>
    intro r _ _
    simp only [answers, List.map_nil, List.nil_append, serve_answer]
    have hp : (s.afterReads before r (s.seq.polls + before.length)).pin = s.pin := rfl
    rw [hp, State.afterReads_record, level_returns, if_pos ha]
    simp [State.afterReads]
  | cons x later ih =>
    intro r hmem hlen
    simp only [answers, List.map_cons, List.cons_append, serve_answer]
    have hp : (s.afterReads before r (s.seq.polls + before.length)).pin = s.pin := rfl
    have hx := has x (hmem x (by simp))
    rw [hp, State.afterReads_record, level_returns, if_neg (not_not.mpr hx)]
    have hne : ¬ s.cfg.swPollMax = some (s.seq.polls + before.length + 1) := by
      intro h
      have := hb _ h
      simp only [List.length_cons] at hlen
      omega
    have hcfg : ∀ (q : List Answer) (l : List Input) (m : Nat), (s.afterReads q l m).cfg = s.cfg := fun _ _ _ => rfl
    have hpolls : ∀ (q : List Answer) (l : List Input) (m : Nat), (s.afterReads q l m).seq.polls = m :=
      fun _ _ _ => rfl
    simp only [hcfg, hpolls, hne, if_false]
    have := ih (before ++ [x]) (answers later ++ .answer a :: rest) (fun y hy => hmem y (by simp [hy]))
      (by simp only [List.length_append, List.length_cons, List.length_nil] at hlen ⊢; omega)
    simpa [State.afterReads, answers, Nat.add_assoc] using this

/-! ## The blit -/

/-- A glyph's columns. -/
theorem glyph_getElem? (g : Glyph) (k : Nat) : g.toList[k]? = g[k]? := by
  simp

/-- What a blit of a text whose codes all have glyphs does to every byte. -/
theorem read?_blit (font : List Glyph) (m : Memory) (start : Nat) (text : List Byte)
    (h : drawable font text = true) (a : Nat) :
    (blit font m start text).read? a = afterText font m start text a := by
  induction text generalizing m start with
  | nil => simp [blit, afterText]
  | cons c cs ih =>
    have hc : 32 ≤ c.toNat ∧ c.toNat < 32 + font.length := by
      simpa [drawable] using (List.all_eq_true.mp h) c (by simp)
    have hcs : drawable font cs = true := by
      unfold drawable at h ⊢
      simp only [List.all_cons, Bool.and_eq_true] at h
      exact h.2
    obtain ⟨g, hg⟩ : ∃ g, font[c.toNat - 32]? = some g :=
      ⟨_, List.getElem?_eq_getElem (show c.toNat - 32 < font.length by omega)⟩
    have hgl : glyphOf font c = some g := by
      simp [glyphOf, hg, show ¬ c.toNat < 32 by omega]
    have hlen : g.toList.length = 5 := by simp
    simp only [blit, hgl, ih _ _ hcs, afterText, List.length_cons, Memory.read?_writeBytes, hlen]
    by_cases h0 : start ≤ a ∧ a < start + 5
    · have hq : (a - start) / 6 = 0 := by omega
      have hr : (a - start) % 6 = a - start := by omega
      rw [if_neg (by omega), if_pos h0, if_pos (by omega), hq, hr]
      simp only [List.getElem?_cons_zero, Option.bind_some, hg]
      exact glyph_getElem? g (a - start)
    · by_cases h1 : start + 6 ≤ a
      · have hq : (a - start) / 6 = (a - (start + 6)) / 6 + 1 := by omega
        have hr : (a - start) % 6 = (a - (start + 6)) % 6 := by omega
        rw [hq, hr]
        by_cases h2 : (a - (start + 6)) / 6 < cs.length ∧ (a - (start + 6)) % 6 < 5
        · rw [if_pos ⟨h1, h2⟩, if_pos (by omega)]
          simp
        · rw [if_neg (by omega), if_neg (by omega), if_neg (by omega)]
      · rw [if_neg (by omega), if_neg h0]
        by_cases h2 : start ≤ a
        · rw [if_neg (by omega)]
        · rw [if_neg (by omega)]

/-! ## Decimal digits -/

/-- The digits' number. -/
def digitsValue (l : List Byte) : Nat := l.foldl (fun n d => 10 * n + (d.toNat - 0x30)) 0

theorem digitCode_toNat (d : Nat) (h : d < 10) : (digitCode d).toNat = 0x30 + d := by
  simp only [digitCode, BitVec.toNat_ofNat]
  omega

theorem digitsValue_append (l : List Byte) (d : Byte) :
    digitsValue (l ++ [d]) = 10 * digitsValue l + (d.toNat - 0x30) := by
  simp [digitsValue]

/-- With enough fuel the digits stand for the number. -/
theorem digitsValue_decimalDigits (fuel n : Nat) (h : n < 10 ^ fuel) : digitsValue (decimalDigits fuel n) = n := by
  induction fuel generalizing n with
  | zero => simp at h; subst h; rfl
  | succ fuel ih =>
    unfold decimalDigits
    split
    · rename_i hn
      simp [digitsValue, digitCode_toNat n hn]
    · rw [digitsValue_append, ih (n / 10) (by rw [pow_succ] at h; omega), digitCode_toNat _ (by omega)]
      omega

/-- Between one digit and as many as the fuel. -/
theorem decimalDigits_length (fuel n : Nat) (h : 0 < fuel) :
    1 ≤ (decimalDigits fuel n).length ∧ (decimalDigits fuel n).length ≤ fuel := by
  induction fuel generalizing n with
  | zero => omega
  | succ fuel ih =>
    unfold decimalDigits
    split
    · simp
    · cases fuel with
      | zero => simp [decimalDigits]
      | succ fuel =>
        have := ih (n / 10) (by omega)
        simp only [List.length_append, List.length_cons, List.length_nil]
        omega

/-- Every character is an ASCII digit. -/
theorem decimalDigits_digits (fuel n : Nat) : allDigits (decimalDigits fuel n) = true := by
  induction fuel generalizing n with
  | zero => rfl
  | succ fuel ih =>
    unfold decimalDigits
    split
    · rename_i hn
      simp [allDigits, digitCode_toNat n hn]
      omega
    · have hd := ih (n / 10)
      unfold allDigits at hd ⊢
      rw [List.all_append, hd]
      simp [digitCode_toNat (n % 10) (by omega)]
      omega

end Sys2Proof.Machine
end

