-- ==== Sys2Proof/Tests/Slice0.lean ====
section
/-! SUPPORT. Tests on fixed values, and for every statement with hypotheses a state and operands that meet them, one
theorem per clause. Expected results of the instruction tests are those of spec/95_test_vectors.md, by the vector's
name. -/

namespace Sys2Proof.Tests

section
set_option Elab.async false
open Sys2Proof Sys2Proof.Machine

/-! ## The machine under test -/

/-- The test font of 95_test_vectors.md, its first 64 glyphs. -/
def font : List Glyph :=
  (List.range 64).map fun g =>
    if g = 0 then #v[0, 0, 0, 0, 0]
    else if g = 1 then Config.bangGlyph
    else Vector.ofFn fun k => BitVec.ofNat 8 (5 * g + k.val + 1)

/-- An instance with both poll bounds 2, one modem write and one preamble write. -/
def cfg : Config :=
  { pt := Config.chipPt
    dsp := Config.chipDsp font
    rf := { regFifo := 0x00, regOpMode := 0x01, regFrfMsb := 0x06, regFrfMid := 0x07, regFrfLsb := 0x08
            regPaConfig := 0x09, regFifoAddrPtr := 0x0D, regFifoTxBase := 0x0E, regIrqFlags := 0x12
            regPayloadLen := 0x22, regSyncWord := 0x39
            modeSleep := 0x80, modeStdby := 0x81, modeTx := 0x83, irqTxDone := 0x08
            modemWrites := [(0x1D, 0xD1)], preambleWrites := [(0x20, 0xE1)]
            paValue := 0xFA, syncWord := 0x34, dummy := 0x00, delay1Ms := 10, delay2Ms := 11, pollMax := some 2 }
    swPollMax := some 2 }

/-- The reset state of that instance. -/
def base : State := { State.reset with cfg := cfg }

/-- That state with a register and inputs of the caller's. -/
def given (arg0 : Word) (l : List Input) : State :=
  { base with host := { base.host with arg0 := arg0 }, env := { base.env with inputs := l } }

/-- Initialised, with V-PT-CAL, a display of 12 by 8 pixels, text `!"` in `BUF` and inputs of the caller's. -/
def ready (arg0 : Word) (len : Byte) (l : List Input) : State :=
  { given arg0 l with
    host := { base.host with arg0 := arg0, len := len, buf := [(0, 0x21), (1, 0x22)] }
    pt := { base.pt with
      init := true
      cal := { ac1 := 408, ac2 := 0xFFB8, ac3 := 0xC7D1, ac4 := 32741, ac5 := 32757, ac6 := 23153
               b1 := 6190, b2 := 4, mb := 0x8000, mc := 0xDDF9, md := 2868 } }
    dsp := { base.dsp with init := true, width := 12, height := 8, fbLen := 12 }
    rf := { base.rf with init := true, mode := .standby } }

/-- The state an operation leaves. -/
def outcome (i : Instr) (s : State) : State :=
  match exec i s with
  | .next t => t
  | _ => s

theorem exec_outcome (i : Instr) (s : State) : exec i s = .next (outcome i s) := by
  cases i <;> rfl

/-- `n` acknowledged answers with datum 0. -/
def zeros (n : Nat) : List Input := acked (List.replicate n 0)

/-- An answer of level `b`. -/
def level (b : Bool) : Answer := ⟨true, (BitVec.ofBool b).setWidth 24⟩

/-- The waves of the bytes `bs`, no run longer than it must be: the sequence `Q` of 95_test_vectors.md. -/
def waves (bs : List Byte) : List BitWave :=
  bs.flatMap fun b => [7, 6, 5, 4, 3, 2, 1, 0].map fun k => { low := 0, bit := b.getLsbD k, high := 0 }

/-- The answers of `Q(bs)`. -/
def Q (bs : List Byte) : List Answer := (handshakeLine 0 0 ++ bitsLine (waves bs)).map level

/-- A sensor's answer that is not acknowledged. -/
def nack : Input := .answer ⟨false, 5⟩

/-- What may follow an operation's last answer. -/
def later : List Input := [.ext (.hostRead 0x003)]

/-! ## Well-formed operands: what each check turns away, and its boundary -/

theorem test_wf_ptInit_address :
    Instr.ptInit.wellFormed ⟨0x80, 0, 0, 0⟩ = false ∧ Instr.ptInit.wellFormed ⟨0x7F, 0, 0, 0⟩ = true := by decide

theorem test_wf_pin :
    Instr.swReadT.wellFormed ⟨256, 0, 0, 0⟩ = false ∧ Instr.swReadH.wellFormed ⟨0x80000000, 0, 0, 0⟩ = false ∧
    Instr.swReadH.wellFormed ⟨255, 0, 0, 0⟩ = true := by decide

theorem test_wf_display_width :
    Instr.dspInit.wellFormed ⟨0, 8, 0, 0⟩ = false ∧ Instr.dspInit.wellFormed ⟨129, 8, 0, 0⟩ = false ∧
    Instr.dspInit.wellFormed ⟨128, 64, 0x7F, 0⟩ = true := by decide

theorem test_wf_display_height :
    Instr.dspInit.wellFormed ⟨1, 0, 0, 0⟩ = false ∧ Instr.dspInit.wellFormed ⟨1, 12, 0, 0⟩ = false ∧
    Instr.dspInit.wellFormed ⟨1, 72, 0, 0⟩ = false ∧ Instr.dspInit.wellFormed ⟨1, 8, 0, 0⟩ = true := by decide

theorem test_wf_display_address : Instr.dspInit.wellFormed ⟨1, 8, 0x80, 0⟩ = false := by decide

/-- A missing step, two steps exchanged, and each of the four fixed operands wrong. -/
theorem test_wf_initList :
    let l := Config.chipInitBytes.table
    initListOk l = true ∧ initInOrder (l.drop 1) = false ∧ initInOrder (l.drop 24 ++ l.take 24) = false ∧
    initOperandsFixed (l.set 4 ⟨.multiplexRatio, .fixed 0x3F, 4⟩) = false ∧
    initOperandsFixed (l.set 6 ⟨.displayOffset, .fixed 1, 6⟩) = false ∧
    initOperandsFixed (l.set 7 ⟨.startLine, .fixed 0x41, 7⟩) = false ∧
    initOperandsFixed (l.set 15 ⟨.comPins, .fixed 0x12, 15⟩) = false := by
  decide +kernel

theorem test_wf_send :
    Instr.rfSend.wellFormed ⟨256, 0, 0, 0⟩ = false ∧ Instr.rfSend.wellFormed ⟨0, 0, 0, 255⟩ = false ∧
    Instr.rfSend.wellFormed ⟨255, 0, 0, 254⟩ = true := by decide

/-! ## Decoding: the words of 30_encoding.md R100, R101, bit by bit (`ZERO` 24 bits, then `OPC`) -/

theorem test_decode_ptInit : decode 0b000000000000000000000000_00010000 = .ok .ptInit := by decide
theorem test_decode_ptReadT : decode 0b000000000000000000000000_00010001 = .ok .ptReadT := by decide
theorem test_decode_ptReadP : decode 0b000000000000000000000000_00010010 = .ok .ptReadP := by decide
theorem test_decode_swReadT : decode 0b000000000000000000000000_00100000 = .ok .swReadT := by decide
theorem test_decode_swReadH : decode 0b000000000000000000000000_00100001 = .ok .swReadH := by decide
theorem test_decode_swSetCal : decode 0b000000000000000000000000_00100010 = .ok .swSetCal := by decide
theorem test_decode_dspInit : decode 0b000000000000000000000000_00110000 = .ok .dspInit := by decide
theorem test_decode_dspClear : decode 0b000000000000000000000000_00110001 = .ok .dspClear := by decide
theorem test_decode_dspShowStr : decode 0b000000000000000000000000_00110010 = .ok .dspShowStr := by decide
theorem test_decode_dspShowNum : decode 0b000000000000000000000000_00110011 = .ok .dspShowNum := by decide
theorem test_decode_rfInit : decode 0b000000000000000000000000_01000000 = .ok .rfInit := by decide
theorem test_decode_rfSend : decode 0b000000000000000000000000_01000001 = .ok .rfSend := by decide
theorem test_decode_rfOnRecv : decode 0b000000000000000000000000_01000010 = .ok .rfOnRecv := by decide
theorem test_decode_zero_field : decode 0b000000000000000000000001_00010000 = .error (.zeroFieldSet 0x10) := by decide
theorem test_decode_no_opcode : decode 0b000000000000000000000000_01000011 = .error (.noSuchOpcode 0x43) := by decide
theorem test_decodeTableWord : decodeTableWord 32 0x31 = some .dspClear ∧ decodeTableWord 32 0x131 = none := by decide

/-! ## Instructions: one step each -/

/-- V-PT-INIT1: the signed AC2 and MC read back through the window as they were sent. -/
theorem test_ptInit_loads :
    let t := outcome .ptInit (given 0x77
      (acked [408, 0xFFB8, 0xC7D1, 32741, 32757, 23153, 6190, 4, 0x8000, 0xDDF9, 2868]))
    t.pt.init = true ∧ t.hostValue 0x011 = 0xFFFFFFB8 ∧ t.hostValue 0x013 = 32741 ∧ t.env.trace.length = 11 := by
  decide +kernel

/-- V-PT-INIT2: read 4 is not acknowledged. -/
theorem test_ptInit_busError :
    let t := outcome .ptInit (ready 0x76 0 (zeros 4 ++ [nack]))
    t.seq.cause = 0x0401 ∧ t.pt.init = false ∧ t.pt.addr = 0x76 ∧ t.pt.cal.ac4 = 0 ∧ t.pt.cal.ac5 = 32757 := by
  decide +kernel

/-- V-PT-T1: 15.0 degrees, floor and not truncation. -/
theorem test_ptReadT_value :
    let t := outcome .ptReadT (ready 0 0 (acked [0, 27898]))
    t.host.ret0 = 150 ∧ t.host.ret1 = 2399 := by
  decide +kernel

/-- V-PT-GUARD. -/
theorem test_ptReadT_guard :
    let t := outcome .ptReadT (given 0 [])
    t.seq.cause = 0x0102 ∧ t.env.trace = [] := by
  decide +kernel

/-- V-PT-P2: the first branch. -/
theorem test_ptReadP_value :
    let t := outcome .ptReadP (ready 0 0 (acked [0, 27898, 0, 0x5D2300]))
    t.host.ret0 = 783 ∧ t.host.ret1 = 7831 := by
  decide +kernel

/-- V-PT-P4: the second branch, the low byte of the sample dropped. -/
theorem test_ptReadP_secondBranch :
    let t := outcome .ptReadP (ready 0 0 (acked [0, 27898, 0, 0x0CE4FF]))
    t.host.ret0 = 25806 ∧ t.host.ret1 = 258060 := by
  decide +kernel

/-- V-SW-1 with offset −2: accepted. -/
theorem test_swReadT_accepted :
    let s := given 3 (answers (Q [0x32, 0x00, 0x18, 0x00, 0x4A]))
    let t := outcome .swReadT { s with sw := { s.sw with calOff := 0xFFFFFFFE } }
    t.host.ret0 = 22 ∧ t.sw.frame = 0x320018004A ∧ t.sw.lastH = 50 ∧ t.env.trace.length = 167 := by
  decide +kernel

/-- V-SW-3: no response, the cached value comes back. -/
theorem test_swReadT_noResponse :
    let s := given 3 (answers [level true])
    let t := outcome .swReadT { s with sw := { s.sw with lastT := 24, lastH := 50, haveFrame := true } }
    t.host.ret0 = 24 ∧ t.sw.stat = .noResponse ∧ t.seq.cause = 0 ∧ t.env.trace.length = 5 := by
  decide +kernel

/-- V-SW-2: rejected, the old humidity comes back. -/
theorem test_swReadH_rejected :
    let s := given 3 (answers (Q [0x32, 0x00, 0x18, 0x00, 0x00]))
    let t := outcome .swReadH { s with sw := { s.sw with lastT := 24, lastH := 50, haveFrame := true } }
    t.host.ret0 = 50 ∧ t.sw.frame = 0x3200180000 ∧ t.sw.stat = .checksumMismatch := by
  decide +kernel

/-- V-SW-PM1, with the bound 2: the wait for the first handshake edge expires. -/
theorem test_swReadH_timeout :
    let t := outcome .swReadH (given 3 (answers [level false, level false, level false]))
    t.seq.cause = 0x0603 ∧ t.sw.stat = .timeout ∧ t.env.trace.length = 7 := by
  decide +kernel

/-- V-SW-SETCAL. -/
theorem test_swSetCal :
    (outcome .swSetCal (given 0xFFFFFFFE [])).sw.calOff.toInt = -2 := by
  decide +kernel

/-- V-DSP-INIT32, at width 8: multiplex ratio and COM pins of height 32, the last page of the window. -/
theorem test_dspInit_height32 :
    let s := given 8 (zeros 32)
    let t := outcome .dspInit { s with host := { s.host with arg1 := 32, arg2 := 0x3D } }
    t.env.trace[4]? = some ⟨.twWrite8 0x3D 0x00 0x1F, ⟨true, 0⟩⟩ ∧
    t.env.trace[15]? = some ⟨.twWrite8 0x3D 0x00 0x02, ⟨true, 0⟩⟩ ∧
    t.env.trace[30]? = some ⟨.twWrite8 0x3D 0x00 0x03, ⟨true, 0⟩⟩ ∧ t.dsp.fbLen = 32 := by
  decide +kernel

/-- The byte after the first twenty-five is not acknowledged: the framebuffer is cleared, the unit is not ready. -/
theorem test_dspInit_flushFails :
    let s := ready 8 0 (zeros 25 ++ [nack])
    let t := outcome .dspInit { s with host := { s.host with arg1 := 8, arg2 := 0x3C } }
    t.seq.cause = 0x4001 ∧ t.dsp.init = false ∧ t.dsp.fb.read? 7 = some 0 ∧ t.dsp.fb.read? 8 = none := by
  decide +kernel

/-- V-DSP-CLEAR, at 12 by 8: the window, the block. -/
theorem test_dspClear :
    let t := outcome .dspClear (ready 0 0 (zeros 7))
    t.env.trace[2]? = some ⟨.twWrite8 0x3C 0x00 0x0B, ⟨true, 0⟩⟩ ∧
    t.env.trace[6]? = some ⟨.twWriteBlock 0x3C (0x40 :: List.replicate 12 0), ⟨true, 0⟩⟩ := by
  decide +kernel

/-- V-DSP-BANG: the one glyph the source gives; the spacing column is not written. -/
theorem test_dspShowStr_bang :
    let t := outcome .dspShowStr (ready 0 1 (zeros 7))
    (List.range 6).map t.dsp.fb.read? = [some 0x00, some 0x00, some 0x5F, some 0x00, some 0x00, none] ∧
    t.seq.cause = 0 := by
  decide +kernel

/-- The highest index of two characters from column 1 of a 12-byte framebuffer is 16: refused, nothing written. -/
theorem test_dspShowStr_range :
    let s := ready 0 2 []
    let t := outcome .dspShowStr { s with host := { s.host with arg1 := 1 } }
    t.seq.cause = 0x0407 ∧ t.dsp.fb = [] ∧ t.env.trace = [] := by
  decide +kernel

/-- V-DSP-NUM, at row 0 of a wider display: `-40`. -/
theorem test_dspShowNum :
    let s := ready 0 0 (zeros 7)
    let t := outcome .dspShowNum
      { s with
        host := { s.host with arg2 := 0xFFFFFFD8 }, dsp := { s.dsp with width := 18, fbLen := 18 } }
    (List.range 3).map t.host.buf.read? = [some 0x2D, some 0x34, some 0x30] ∧ t.host.len = 3 ∧
    t.dsp.fb.read? 6 = some 0x65 := by
  decide +kernel

/-- The text starts at `row * width * 2 + col * 6` (V-DSP-NUM: 268). -/
theorem test_textStart :
    let s := given 1 []
    State.textStart { s with host := { s.host with arg1 := 2 } } = 268 := by
  decide +kernel

/-- V-RF-INIT: the frequency word and its three register writes. -/
theorem test_rfInit :
    let t := outcome .rfInit (given 433000000 (zeros 18))
    t.rf.frf = 0x6C4012 ∧ t.rf.mode = .standby ∧
    ((t.env.trace.drop 3).take 6).map (·.prim) =
      [.spiXfer 0x86, .spiXfer 0x6C, .spiXfer 0x87, .spiXfer 0x40, .spiXfer 0x88, .spiXfer 0x12] := by
  decide +kernel

/-- The worked example of 43_radio.md R265, with payload 0x21 0x22. -/
theorem test_rfSend :
    let t := outcome .rfSend (ready 0 2 (zeros 16 ++ acked [0, 0, 0, 8] ++ zeros 4))
    t.seq.cause = 0 ∧ t.env.trace.map (·.prim) =
      [.spiXfer 0x81, .spiXfer 0x81, .spiXfer 0x8E, .spiXfer 0x00, .spiXfer 0x8D, .spiXfer 0x00,
       .spiXfer 0xA2, .spiXfer 0x03, .spiXfer 0x80, .spiXfer 0x00, .spiXfer 0x80, .spiXfer 0x21,
       .spiXfer 0x80, .spiXfer 0x22, .spiXfer 0x81, .spiXfer 0x83, .spiXfer 0x12, .spiXfer 0x00,
       .spiXfer 0x12, .spiXfer 0x00, .spiXfer 0x92, .spiXfer 0xFF, .spiXfer 0x81, .spiXfer 0x81] := by
  decide +kernel

/-- V-RF-TO, with the bound 2: Standby is written, the flags are not. -/
theorem test_rfSend_timeout :
    let t := outcome .rfSend (ready 0 0 (zeros 12 ++ zeros 4 ++ zeros 2))
    t.seq.cause = 0xC003 ∧ t.rf.mode = .standby ∧ t.seq.busy = false := by
  decide +kernel

/-- V-RF-RX: the event is lost before `RF.ONRECV` and pending after it. -/
theorem test_rfOnRecv :
    (base.external (.rxEvent 7)).hostValue 0x001 = 0x000 ∧
    ((outcome .rfOnRecv base).external (.rxEvent 7)).hostValue 0x001 = 0x060 := by
  decide +kernel

/-! ## Hypotheses of the statements are met: encoding and the step -/

/-- Two words next to the thirteen, and the four forms of the write. -/
theorem test_witness_IllegalCommandRaises :
    (0x13 : Word) ∉ ([0x10, 0x11, 0x12, 0x20, 0x21, 0x22, 0x30, 0x31, 0x32, 0x33, 0x40, 0x41, 0x42] : List Word) ∧
    (0x110 : Word) ∉ ([0x10, 0x11, 0x12, 0x20, 0x21, 0x22, 0x30, 0x31, 0x32, 0x33, 0x40, 0x41, 0x42] : List Word) ∧
    base.idle ∧ base.env.rst = false ∧ quiet later = true ∧
    ∀ e ∈ [External.hostWrite 0x000 0x13, .hostWriteRx 0x000 0x13 7],
      (given 0 (.ext e :: later)).env.inputs = .ext e :: later ∧
      (given 0 (.early e :: later)).env.inputs = .early e :: later := by
  decide +kernel

theorem test_witness_StepRunsCommand :
    decode 0x42 = .ok .rfOnRecv ∧ (given 0 []).idle ∧ (given 0 []).env.rst = false ∧
    (given 0 (.ext (.hostWrite 0x000 0x42) :: later)).env.inputs = .ext (.hostWrite 0x000 0x42) :: later ∧
    (given 0 (.early (.hostWrite 0x000 0x42) :: later)).env.inputs = .early (.hostWrite 0x000 0x42) :: later ∧
    (given 0 [.ext (.hostWriteRx 0x000 0x42 7)]).env.inputs = [.ext (.hostWriteRx 0x000 0x42 7)] ∧
    (given 0 [.early (.hostWriteRx 0x000 0x42 7)]).env.inputs = [.early (.hostWriteRx 0x000 0x42 7)] := by
  decide +kernel

/-- An operation in flight: `PT.READT` waiting for its first answer. -/
def inFlight (l : List Input) : State := (outcome .ptReadT (ready 0 0 [])).withInputs l

theorem test_witness_StepOtherwise :
    ((inFlight []).env.rst = false ∧ (inFlight []).seq.busy = true ∧
      instrOfOpcode (inFlight []).seq.op = some .ptReadT ∧
      base.env.rst = false ∧ base.idle ∧ base.env.inputs = [] ∧ (given 0 [nack]).env.inputs = [nack] ∧
      (given 0 [.pass]).env.inputs = [.pass] ∧
      (given 0 [.ext (.hostWrite 0x001 0)]).env.inputs = [.ext (.hostWrite 0x001 0)] ∧
      (given 0 [.early (.hostWrite 0x001 0)]).env.inputs = [.early (.hostWrite 0x001 0)]) ∧
    (∀ w, External.hostWrite 0x001 0 ≠ .hostWrite 0x000 w) ∧
    (∀ w n, External.hostWrite 0x001 0 ≠ .hostWriteRx 0x000 w n) := by
  refine ⟨by decide +kernel, ?_, ?_⟩
  · intro w h
    injection h with h
    exact absurd h (by decide)
  · intro w n h
    cases h

/-! ## … the host port, the receive event, reset -/

theorem test_witness_HostWindow :
    0 < 256 ∧ 255 < 256 ∧ 0 < 1024 ∧ 1023 < 1024 ∧ (0x009 ≤ 0x009 ∧ 0x00F ≤ 0x00F) ∧ (0x025 ≤ 0x027 ∧ 0x027 ≤ 0x027) ∧
    (0x02C ≤ 0x02F ∧ 0x02F ≤ 0x02F) ∧ (0x032 ≤ 0x0FF ∧ 0x0FF ≤ 0x0FF) ∧ (0x200 ≤ 0x3FF ∧ 0x3FF ≤ 0x3FF) ∧
    (ready 0 0 []).hostValue 0x40C = 0 ∧ (ready 0 0 []).hostValue 0x011 = 0xFFFFFFB8 := by
  decide +kernel

theorem test_witness_StatusRegister : base.idle ∧ (inFlight []).seq.busy = true := by decide +kernel

theorem test_witness_HostReads :
    base.idle ∧ (inFlight []).seq.busy = true ∧ (0x003 : HostIndex) ≠ 0x001 := by decide +kernel

/-- Boundary indices of the three clauses. -/
theorem test_witness_BusyWritesDropped :
    (inFlight []).seq.busy = true ∧
    (0x000 : HostIndex).toNat = 0x000 ∧ (0x005 : HostIndex).toNat = 0x005 ∧ (0x008 : HostIndex).toNat = 0x008 ∧
    (0x100 ≤ (0x100 : HostIndex).toNat) ∧ (0x1FF : HostIndex).toNat ≤ 0x1FF ∧
    (0x002 ≤ (0x002 : HostIndex).toNat) ∧ (0x004 : HostIndex).toNat ≤ 0x004 ∧ (0x009 ≤ (0x009 : HostIndex).toNat) ∧
    (0x0FF : HostIndex).toNat ≤ 0x0FF ∧ (0x200 ≤ (0x200 : HostIndex).toNat) ∧ (0x200 ≤ (0x7FF : HostIndex).toNat) := by
  decide +kernel

theorem test_witness_IdleWrites :
    base.idle ∧ 0 < 256 ∧ 255 < 256 ∧ (0x002 ≤ (0x002 : HostIndex).toNat) ∧ (0x004 : HostIndex).toNat ≤ 0x004 ∧
    (0x009 ≤ (0x009 : HostIndex).toNat) ∧ (0x0FF : HostIndex).toNat ≤ 0x0FF ∧ (0x200 ≤ (0x200 : HostIndex).toNat) := by
  decide +kernel

theorem test_witness_ReceiveEvent :
    (outcome .rfOnRecv base).rf.rxie = true ∧ base.rf.rxie = false := by decide +kernel

theorem test_witness_AcknowledgeReceive :
    (0x40 : Word).getLsbD 6 = true ∧ (outcome .rfOnRecv base).rf.rxie = true ∧ base.rf.rxie = false := by
  decide +kernel

/-- The invariant, decided. -/
def inv (s : State) : Bool := decide s.Inv

theorem inv_of (s : State) (h : inv s = true) : s.Inv := of_decide_eq_true h

theorem test_witness_ResetInput_idle :
    (given 0 (.ext (.rst true) :: later)).Inv ∧ (given 0 (.early (.rst true) :: later)).Inv ∧
    (given 0 []).env.rst = false :=
  ⟨inv_of _ (by decide +kernel), inv_of _ (by decide +kernel), rfl⟩

theorem test_witness_ResetInput_inFlight :
    (inFlight (.ext (.rst true) :: later)).Inv ∧ (inFlight (.early (.rst true) :: later)).Inv ∧
    (inFlight []).seq.busy = true ∧ (inFlight []).env.rst = false :=
  ⟨inv_of _ (by decide +kernel), inv_of _ (by decide +kernel), by decide +kernel⟩

/-- What a step leaves. -/
def stepped (s : State) : State :=
  match step s with
  | .next t => t
  | _ => s

/-- R321: asserted during `PT.READT`, then held: a command and an `RxEvent` do nothing; after the release a command
starts. -/
theorem test_reset_held :
    let s := inFlight [.ext (.rst true), .ext (.hostWrite 0x000 0x42), .ext (.rxEvent 7), .ext (.rst false),
      .ext (.hostWrite 0x000 0x42)]
    let held := stepped (stepped (stepped s))
    (stepped s).seq.busy = false ∧ (stepped s).env.trace = s.env.trace ∧
    held.env.rst = true ∧ held.seq = Seq.reset ∧ held.rf = Rfc.reset ∧
    (stepped held).env.rst = false ∧ (stepped (stepped held)).rf.rxie = true := by
  decide +kernel

/-- An operation in flight, then held in reset with inputs of the caller's. -/
def heldWith (l : List Input) : State := (stepped (inFlight [.ext (.rst true)])).withInputs l

theorem test_witness_ResetHeld :
    (∀ l ∈ ([[], [nack], [.pass]] : List (List Input)), inv (heldWith l) = true ∧ (heldWith l).env.rst = true ∧
      (heldWith l).env.inputs = l) ∧
    ∀ e ∈ [External.hostWrite 0x000 0x42, .rxEvent 7, .hostWriteRx 0x005 1 7, .hostRead 0x01E, .rst true, .rst false],
      inv (heldWith [.ext e]) = true ∧ inv (heldWith [.early e]) = true ∧
      (heldWith [.ext e]).env.inputs = [.ext e] ∧ (heldWith [.early e]).env.inputs = [.early e] := by
  decide +kernel

/-! ## … PTC -/

theorem test_witness_PtInit_badAddress :
    (given 0x80 later).idle ∧ 0x7F < (given 0x80 later).host.arg0.toNat ∧
    quiet (given 0x80 later).env.inputs = true := by decide +kernel

theorem test_witness_PtInit_completes :
    let d : List (BitVec 24) := List.replicate 11 7
    let s := given 0x7F (acked d ++ later)
    s.idle ∧ s.host.arg0.toNat ≤ 0x7F ∧ d.length = 11 ∧ s.env.inputs = acked d ++ later ∧ quiet later = true := by
  decide +kernel

/-- The first read and the last one fail. -/
theorem test_witness_PtInit_fails :
    ([] : List (BitVec 24)).length < 11 ∧ (given 0 (acked [] ++ nack :: later)).env.inputs = acked [] ++ nack :: later ∧
    (List.replicate 10 (7 : BitVec 24)).length < 11 ∧
    (given 0 (acked (List.replicate 10 7) ++ nack :: later)).env.inputs
      = acked (List.replicate 10 7) ++ nack :: later := by
  decide +kernel

theorem test_witness_PtReadTemperature :
    (given 0 later).idle ∧ (given 0 later).pt.init = false ∧ quiet (given 0 later).env.inputs = true ∧
    (ready 0 0 []).idle ∧ (ready 0 0 []).pt.init = true ∧ (ready 0 0 []).cfg.pt.div0 = 0 ∧ quiet later = true ∧
    (ready 0 0 (nack :: later)).env.inputs = .answer ⟨false, 5⟩ :: later ∧
    (ready 0 0 (.answer ⟨true, 0⟩ :: nack :: later)).env.inputs = .answer ⟨true, 0⟩ :: .answer ⟨false, 5⟩ :: later ∧
    (ready 0 0 (acked [0, 27898] ++ later)).env.inputs = .answer ⟨true, 0⟩ :: .answer ⟨true, 27898⟩ :: later := by
  decide +kernel

theorem test_witness_FirstStageRanges : 0 ≤ 65535 ∧ 65535 ≤ 65535 := by decide

theorem test_witness_PtReadPressure :
    (given 0 later).idle ∧ (given 0 later).pt.init = false ∧ quiet (given 0 later).env.inputs = true ∧
    (ready 0 0 []).idle ∧ (ready 0 0 []).pt.init = true ∧ quiet later = true ∧
    (ready 0 0 (nack :: later)).env.inputs = .answer ⟨false, 5⟩ :: later ∧
    (ready 0 0 (acked [0] ++ nack :: later)).env.inputs = .answer ⟨true, 0⟩ :: .answer ⟨false, 5⟩ :: later ∧
    (ready 0 0 (acked [0, 1] ++ nack :: later)).env.inputs
      = .answer ⟨true, 0⟩ :: .answer ⟨true, 1⟩ :: .answer ⟨false, 5⟩ :: later ∧
    (ready 0 0 (acked [0, 1, 0] ++ nack :: later)).env.inputs
      = .answer ⟨true, 0⟩ :: .answer ⟨true, 1⟩ :: .answer ⟨true, 0⟩ :: .answer ⟨false, 5⟩ :: later ∧
    (ready 0 0 (acked [0, 1, 0, 9] ++ later)).env.inputs
      = .answer ⟨true, 0⟩ :: .answer ⟨true, 1⟩ :: .answer ⟨true, 0⟩ :: .answer ⟨true, 9⟩ :: later := by
  decide +kernel

/-- V-PT-P7: all-zero calibration makes `B4` zero. -/
theorem test_witness_PressureFormula :
    Config.chipPt.stage2 = .dataSheet ∧ Config.chipPt.oss = 3 ∧ Config.chipPt.div0 = 0 ∧
    Config.chipPt.round = .halfUp ∧ 1234 ≤ 65535 ∧ specB4 CalSet.zero (specB5 CalSet.zero 1234) = 0 ∧
    specPressure CalSet.zero (specB5 CalSet.zero 1234) 4660 = 236 ∧
    specPressure (ready 0 0 []).pt.cal (specB5 (ready 0 0 []).pt.cal 27898) 23843 = 7831 := by
  decide +kernel

theorem test_witness_PressureBranch :
    (0x7FFFFFFF : Word).toNat < 2 ^ 31 ∧ 2 ^ 31 ≤ (0x80000000 : Word).toNat := by decide

/-- Two states that differ in everything else, two samples that agree in the bits that count. -/
theorem test_witness_ReadingsArePure :
    let s := ready 0 0 (acked [0, 0x016CFA] ++ later)
    let t := ready 9 3 (acked [1, 0x026CFA])
    (s.idle ∧ t.idle ∧ s.pt.init = true ∧ t.pt.init = true ∧ s.cfg.pt = t.cfg.pt ∧ s.pt.cal = t.pt.cal ∧
      s.host ≠ t.host ∧ quiet later = true ∧ quiet [] = true ∧
      ((0x016CFA : BitVec 24).setWidth 16 : BitVec 16) = (0x026CFA : BitVec 24).setWidth 16 ∧
      s.env.inputs = acked [0, 0x016CFA] ++ later ∧ t.env.inputs = acked [1, 0x026CFA] ++ []) ∧
    exec .ptReadT s = .next (outcome .ptReadT s) ∧ exec .ptReadT t = .next (outcome .ptReadT t) :=
  ⟨by decide +kernel, exec_outcome _ _, exec_outcome _ _⟩

theorem test_witness_ReadingsArePure_pressure :
    let s := ready 0 0 (acked [0, 27898, 0, 0x5D2300] ++ later)
    let t := ready 9 3 (acked [1, 27898, 2, 0x5D23FF] ++ [])
    ((0x5D2300 : BitVec 24) >>> s.cfg.pt.upShift = 0x5D23FF >>> s.cfg.pt.upShift ∧
      s.env.inputs = acked [0, 27898, 0, 0x5D2300] ++ later ∧
      t.env.inputs = acked [1, 27898, 2, 0x5D23FF] ++ []) ∧
    exec .ptReadP s = .next (outcome .ptReadP s) ∧ exec .ptReadP t = .next (outcome .ptReadP t) :=
  ⟨by decide +kernel, exec_outcome _ _, exec_outcome _ _⟩

/-! ## … SWD -/

/-- A frame with runs at the bound less one. -/
theorem test_witness_SingleWireRead :
    let ws : List BitWave := (waves [0x32, 0x00, 0x18, 0x00, 0x4A]).map fun w => { w with low := 1, high := 1 }
    let as := (handshakeLine 1 0 ++ bitsLine ws).map level
    let s := given 255 (answers as ++ later)
    (s.idle ∧ s.host.arg0.toNat ≤ 255 ∧ ws.length = 40 ∧ answersOf as (handshakeLine 1 0 ++ bitsLine ws) ∧
      s.env.inputs = answers as ++ later ∧ quiet later = true) ∧
    withinBound s.cfg.swPollMax 1 ∧ withinBound s.cfg.swPollMax 0 ∧
    ∀ w ∈ ws, withinBound s.cfg.swPollMax w.low ∧ withinBound s.cfg.swPollMax w.high := by
  refine ⟨by decide +kernel, ?_, ?_, ?_⟩
  · intro n h
    injection h with h
    omega
  · intro n h
    injection h with h
    omega
  · intro w hw
    have h2 : w.low < 2 ∧ w.high < 2 := by
      simp only [List.mem_map] at hw
      obtain ⟨v, _, rfl⟩ := hw
      exact ⟨Nat.one_lt_two, Nat.one_lt_two⟩
    constructor <;> intro n h <;> injection h with h <;> omega

theorem test_witness_SingleWireNoResponse :
    let s := given 255 (.answer (level true) :: later)
    s.idle ∧ s.host.arg0.toNat ≤ 255 ∧ (level true).data.getLsbD 0 = true ∧
    s.env.inputs = .answer (level true) :: later ∧ quiet later = true := by
  decide +kernel

/-- All four forms of the line, the last two for bit 39, in the fourth a low run that is not the response's. -/
theorem test_witness_SingleWireTimeout :
    let ws := (waves [0x32, 0x00, 0x18, 0x00, 0x4A]).take 39
    let lines : List (List Bool) :=
      [false :: List.replicate 2 false, false :: List.replicate 1 false ++ true :: List.replicate 2 true,
       handshakeLine 1 1 ++ bitsLine ws ++ List.replicate 2 false,
       handshakeLine 1 1 ++ bitsLine ws ++ List.replicate 0 false ++ [true, true] ++ List.replicate 2 true]
    (given 3 []).cfg.swPollMax = some 2 ∧ 1 ≤ 2 ∧ 1 < 2 ∧ 0 < 2 ∧ (∀ w ∈ ws, w.low < 2 ∧ w.high < 2) ∧ ws.length = 39 ∧
    ∀ line ∈ lines,
      let s := given 3 (answers (line.map level) ++ later)
      s.idle ∧ s.host.arg0.toNat ≤ 255 ∧ answersOf (line.map level) line ∧
      s.env.inputs = answers (line.map level) ++ later := by
  decide +kernel

theorem test_witness_SetCalibration :
    (given 5 later).idle ∧ quiet (given 5 later).env.inputs = true := by decide +kernel

/-! ## … FTR -/

/-- A `DSP.INIT` of width `w` and height `h` at 0x3C. -/
def sized (w h : Word) (l : List Input) : State :=
  let s := given w l
  { s with host := { s.host with arg1 := h, arg2 := 0x3C } }

theorem test_witness_DspInit_badOperands :
    (sized 129 8 later).idle ∧ (sized 129 8 later).operands.displayOk = false ∧
    (sized 128 12 later).operands.displayOk = false ∧ quiet (sized 129 8 later).env.inputs = true ∧
    (8 : Byte) = (sized 129 8 later).host.arg1.setWidth 8 := by
  decide +kernel

theorem test_witness_DspInit_completes :
    cfg.dsp.initList.length = 25 ∧ cfg.dsp.initList = Config.chipInitBytes.table ∧
    let d : List (BitVec 24) := List.replicate (25 + 7) 0
    let s := sized 128 64 (acked d ++ later)
    s.idle ∧ s.operands.displayOk = true ∧ d.length = 25 + 7 ∧ s.env.inputs = acked d ++ later ∧ quiet later = true ∧
    (128 : Byte) = s.host.arg0.setWidth 8 ∧ (64 : Byte) = s.host.arg1.setWidth 8 ∧
    (0x3C : TwAddr) = s.host.arg2.setWidth 7 ∧ 1024 = (128 : Byte).toNat * (64 : Byte).toNat / 8 := by
  decide +kernel

theorem test_witness_DspInitTable :
    1 ≤ (8 : Byte).toNat ∧ 1 ≤ (255 : Byte).toNat ∧ cfg.dsp.initList = Config.chipInitBytes.table := by
  decide +kernel

/-- A list of two bytes is sent like any other. -/
theorem test_witness_DspInit_otherList :
    let l : List InitEntry := [⟨.displayOff, .fixed 0xAE, 9⟩, ⟨.displayOn, .heightLessOne, 3⟩]
    let s := sized 8 8 (zeros 2 ++ nack :: later)
    let u := { s with cfg := { cfg with dsp := { cfg.dsp with initList := l } } }
    l.length = 2 ∧ u.idle ∧ u.operands.displayOk = true ∧ (outcome .dspInit u).seq.cause = 0x4001 ∧
    (outcome .dspInit (u.withInputs [nack])).seq.cause = 0x0901 ∧
    (outcome .dspInit u).env.trace.map (·.prim) =
      [.twWrite8 0x3C 0x00 0xAE, .twWrite8 0x3C 0x00 0x07, .twWrite8 0x3C 0x00 0x21] := by
  decide +kernel

/-- The first byte, the first flush byte and the block fail. -/
theorem test_witness_DspInit_fails :
    ∀ k ∈ [0, 24, 25, 31],
      let d : List (BitVec 24) := List.replicate k 0
      let s := sized 8 8 (acked d ++ nack :: later)
      s.operands.displayOk = true ∧ d.length < 25 + 7 ∧ s.env.inputs = acked d ++ .answer ⟨false, 5⟩ :: later := by
  decide +kernel

theorem test_witness_DspClear :
    (given 0 later).dsp.init = false ∧ quiet (given 0 later).env.inputs = true ∧
    (ready 0 0 []).idle ∧ (ready 0 0 []).dsp.init = true ∧
    12 = (ready 0 0 []).dsp.width.toNat * (ready 0 0 []).dsp.height.toNat / 8 ∧ 12 ≤ 1024 ∧
    (ready 0 0 (zeros 7 ++ later)).env.inputs = acked (List.replicate 7 0) ++ later ∧ quiet later = true ∧
    (ready 0 0 (zeros 0 ++ nack :: later)).env.inputs = acked [] ++ .answer ⟨false, 5⟩ :: later ∧
    (ready 0 0 (zeros 6 ++ nack :: later)).env.inputs = acked (List.replicate 6 0) ++ .answer ⟨false, 5⟩ :: later := by
  decide +kernel

/-- Guard, range (one past the last byte that fits), no glyph at the second character. -/
theorem test_witness_DspShowString_refused :
    (given 0 later).idle ∧ (given 0 later).dsp.init = false ∧ quiet (given 0 later).env.inputs = true ∧
    (let s := ready 0 2 later
     let u := { s with dsp := { s.dsp with fbLen := 10 } }
     u.idle ∧ u.dsp.init = true ∧ quiet u.env.inputs = true ∧ 1 ≤ u.host.len.toNat ∧
     0 = u.host.arg0.toNat * u.dsp.width.toNat * 2 + u.host.arg1.toNat * 6 ∧ u.dsp.fbLen.toNat ≤ 0 + 6 * (2 - 1) + 4) ∧
    (let s := ready 0 2 later
     let u := { s with cfg := { s.cfg with dsp := Config.chipDsp (font.take 2) } }
     0 + 6 * (2 - 1) + 4 < u.dsp.fbLen.toNat ∧ quiet u.env.inputs = true ∧
     u.text = [0x21] ++ 0x22 :: [] ∧ drawable u.cfg.dsp.font [0x21] = true ∧ drawable u.cfg.dsp.font [0x22] = false) := by
  decide +kernel

/-- Two characters that just fit, and no character at all. -/
theorem test_witness_DspShowString_completes :
    (let s := ready 0 2 (zeros 7 ++ later)
     let u := { s with dsp := { s.dsp with fbLen := 11 } }
     u.idle ∧ u.dsp.init = true ∧ 0 + 6 * (2 - 1) + 4 < u.dsp.fbLen.toNat ∧
     drawable u.cfg.dsp.font u.text = true ∧ u.env.inputs = acked (List.replicate 7 0) ++ later ∧ quiet later = true) ∧
    (ready 0xFFFFFFFF 0 []).host.len.toNat = 0 ∧ drawable font (ready 0xFFFFFFFF 0 []).text = true ∧
    (ready 0 2 (zeros 0 ++ nack :: later)).env.inputs = acked [] ++ .answer ⟨false, 5⟩ :: later ∧
    (ready 0 2 (zeros 6 ++ nack :: later)).env.inputs = acked (List.replicate 6 0) ++ .answer ⟨false, 5⟩ :: later := by
  decide +kernel

/-- A number in `ARG2`, on a display of 12 by 8. -/
def number (n : Word) (l : List Input) : State :=
  let s := ready 0 2 l
  { s with host := { s.host with arg2 := n } }

theorem test_witness_DspShowNumber_refused :
    (given 0 later).idle ∧ (given 0 later).dsp.init = false ∧ quiet (given 0 later).env.inputs = true ∧
    (number 123 later).idle ∧ (number 123 later).dsp.init = true ∧
    (number 123 later).dsp.fbLen.toNat ≤ 0 + 6 * ((decimalText 123).length - 1) + 4 ∧
    (let s := number 12 later
     let u := { s with cfg := { s.cfg with dsp := Config.chipDsp (font.take 18) } }
     0 + 6 * ((decimalText 12).length - 1) + 4 < u.dsp.fbLen.toNat ∧ quiet u.env.inputs = true ∧
     decimalText u.host.arg2.toInt = [0x31] ++ 0x32 :: [] ∧ drawable u.cfg.dsp.font [0x31] = true ∧
     drawable u.cfg.dsp.font [0x32] = false) := by
  decide +kernel

theorem test_witness_DspShowNumber_completes :
    let s := number 12 (zeros 7 ++ later)
    s.idle ∧ s.dsp.init = true ∧ 0 = s.host.arg0.toNat * s.dsp.width.toNat * 2 + s.host.arg1.toNat * 6 ∧
    0 + 6 * ((decimalText s.host.arg2.toInt).length - 1) + 4 < s.dsp.fbLen.toNat ∧
    drawable s.cfg.dsp.font (decimalText s.host.arg2.toInt) = true ∧
    s.env.inputs = acked (List.replicate 7 0) ++ later ∧ quiet later = true ∧
    (number 12 (zeros 6 ++ nack :: later)).env.inputs = acked (List.replicate 6 0) ++ .answer ⟨false, 5⟩ :: later := by
  decide +kernel

/-- The most negative number, zero, the most positive one. -/
theorem test_witness_DecimalText :
    ((0x80000000 : Word).toInt < 0) ∧ ¬ ((0 : Word).toInt < 0) ∧
    decimalText (0 : Word).toInt = [0x30] ∧ (decimalText (0x80000000 : Word).toInt).length = 11 ∧
    decimalValue (decimalText (0x7FFFFFFF : Word).toInt) = 2147483647 := by
  decide +kernel

/-! ## … RFC -/

theorem test_witness_FrequencyWord :
    (1023997378 : Word).toNat ≤ 1023997378 ∧ (frequencyWord 1023997378).toNat = 16777215 ∧
    frequencyWord 433000000 = 0x6C4012 := by
  decide +kernel

theorem test_witness_RadioInit :
    let as := List.replicate 18 (level true)
    let s := given 433000000 (answers as ++ later)
    s.idle ∧ as.length = 2 * (7 + s.cfg.rf.modemWrites.length + s.cfg.rf.preambleWrites.length) ∧
    s.env.inputs = answers as ++ later ∧ quiet later = true := by
  decide +kernel

/-- The flag seen at the first read, and at the last the bound allows. -/
theorem test_witness_RadioSend :
    let read (d : BitVec 24) : List Answer := [⟨true, 0⟩, ⟨true, d⟩]
    let as1 := List.replicate 16 ⟨true, 0⟩ ++ read 8 ++ List.replicate 4 ⟨true, 0⟩
    let as2 := List.replicate 16 ⟨true, 0⟩ ++ read 0 ++ read 8 ++ List.replicate 4 ⟨true, 0⟩
    let s := ready 255 2 (answers as1 ++ later)
    let u := ready 255 2 (answers as2 ++ later)
    (s.idle ∧ s.host.arg0.toNat ≤ 255 ∧ s.host.len.toNat ≤ 254 ∧ s.rf.init = true ∧ quiet later = true ∧
      as1.length = 2 * (8 + s.host.len.toNat + 1) ∧ as2.length = 2 * (8 + u.host.len.toNat + 2) ∧
      (∀ k, k < 1 → flagIn s.cfg.rf as1 (2 * (6 + s.host.len.toNat + k) + 1) = decide (k + 1 = 1)) ∧
      (∀ k, k < 2 → flagIn u.cfg.rf as2 (2 * (6 + u.host.len.toNat + k) + 1) = decide (k + 1 = 2)) ∧
      s.env.inputs = answers as1 ++ later ∧ u.env.inputs = answers as2 ++ later) ∧
    withinBound s.cfg.rf.pollMax 0 ∧ withinBound s.cfg.rf.pollMax 1 := by
  refine ⟨by decide +kernel, ?_, ?_⟩ <;> intro n h <;> injection h with h <;> omega

theorem test_witness_RadioSendTimeout :
    let as := List.replicate 18 (⟨true, 0⟩ : Answer)
    let s := ready 0 0 (answers as ++ later)
    s.idle ∧ s.host.arg0.toNat ≤ 255 ∧ s.host.len.toNat ≤ 254 ∧ s.rf.init = true ∧ s.cfg.rf.pollMax = some 2 ∧
    as.length = 2 * (7 + s.host.len.toNat + 2) ∧
    (∀ k, k < 2 → flagIn s.cfg.rf as (2 * (6 + s.host.len.toNat + k) + 1) = false) ∧
    s.env.inputs = answers as ++ later ∧ quiet later = true := by
  decide +kernel

/-- `ARG0` at and above its bound. -/
theorem test_witness_RadioSendTooEarly :
    (given 255 later).idle ∧ (given 255 later).rf.init = false ∧ quiet (given 255 later).env.inputs = true ∧
    (given 256 later).idle ∧ (given 256 later).rf.init = false ∧ quiet (given 256 later).env.inputs = true ∧
    ¬ 255 < (given 255 later).host.arg0.toNat ∧ 255 < (given 256 later).host.arg0.toNat := by
  decide +kernel

theorem test_witness_RadioOnReceive : (given 0 later).idle ∧ quiet (given 0 later).env.inputs = true := by
  decide +kernel

/-! ## … whole-machine rules -/

theorem test_witness_OperandsAreChecked :
    (given 0x80 later).idle ∧ quiet (given 0x80 later).env.inputs = true ∧
    Instr.ptInit.wellFormed (given 0x80 later).operands = false ∧
    Instr.swReadT.wellFormed (given 256 later).operands = false ∧
    Instr.dspInit.wellFormed (sized 129 12 later).operands = false ∧
    Instr.dspInit.wellFormed (sized 1 12 later).operands = false ∧
    Instr.rfSend.wellFormed (given 256 later).operands = false ∧
    Instr.rfSend.wellFormed (ready 0 255 later).operands = false := by
  decide +kernel

/-- A unit's guard, a missing glyph, an operand. -/
theorem test_witness_EarlyCauses :
    let cases : List (Instr × State × BitVec 4) :=
      [(.dspClear, given 0 later, 2),
       (.dspShowNum, { number 12 later with cfg := { cfg with dsp := Config.chipDsp (font.take 18) } }, 5),
       (.rfSend, given 256 later, 7)]
    (∀ c ∈ cases, exec c.1 c.2.1 = .next (outcome c.1 c.2.1)) ∧
    ∀ c ∈ cases, c.2.1.idle ∧ quiet c.2.1.env.inputs = true ∧ (outcome c.1 c.2.1).idle ∧
      (outcome c.1 c.2.1).seq.cause.extractLsb 3 0 = c.2.2 :=
  ⟨fun _ _ => exec_outcome _ _, by decide +kernel⟩

/-- An operation that ends in `OK` and one that ends in `Timeout`. -/
theorem test_witness_CauseMatrix :
    exec .ptReadT (ready 0 0 (zeros 2)) = .next (outcome .ptReadT (ready 0 0 (zeros 2))) ∧
    (outcome .ptReadT (ready 0 0 (zeros 2))).idle ∧
    exec .rfSend (ready 0 0 (zeros 18)) = .next (outcome .rfSend (ready 0 0 (zeros 18))) ∧
    (outcome .rfSend (ready 0 0 (zeros 18))).idle :=
  ⟨rfl, by decide +kernel, rfl, by decide +kernel⟩

/-- An operation that waits and one that ends with a cause. -/
theorem test_witness_ResultsOnlyOnSuccess :
    exec .ptReadT (ready 0 0 (zeros 1)) = .next (outcome .ptReadT (ready 0 0 (zeros 1))) ∧
    noReset (ready 0 0 (zeros 1)).env.inputs = true ∧
    (outcome .ptReadT (ready 0 0 (zeros 1))).seq.busy = true ∧
    noReset (ready 0 0 (zeros 1 ++ [nack])).env.inputs = true ∧
    (outcome .ptReadT (ready 0 0 (zeros 1 ++ [nack]))).seq.cause ≠ 0 :=
  ⟨exec_outcome _ _, by decide +kernel⟩

/-- Every operation runs without reset among its inputs. -/
theorem test_witness_UnitIsolation :
    ∀ i : Instr, noReset (ready 0 1 (zeros 9 ++ later)).env.inputs = true ∧
      exec i (ready 0 1 (zeros 9 ++ later)) = .next (outcome i (ready 0 1 (zeros 9 ++ later))) :=
  fun i => ⟨by decide +kernel, exec_outcome i _⟩

theorem test_witness_OnlyOwnPorts :
    ∀ i : Instr, exec i (ready 0 1 (zeros 9)) = .next (outcome i (ready 0 1 (zeros 9))) := fun i => exec_outcome i _

theorem test_witness_ConfigNeverChanges :
    step (inFlight (zeros 2)) = .next (outcome .ptReadT (inFlight (zeros 2))) := rfl

theorem test_witness_StepKeepsCanonical :
    (inFlight (zeros 2)).Canonical ∧ step (inFlight (zeros 2)) = .next (outcome .ptReadT (inFlight (zeros 2))) :=
  ⟨(inv_of _ (by decide +kernel)).1, rfl⟩

/-- An operation in flight that ends, and one that waits again, in every unit but SWD's setter. -/
theorem test_witness_StepKeepsInv :
    (inFlight (zeros 2)).Inv ∧ step (inFlight (zeros 2)) = .next (outcome .ptReadT (inFlight (zeros 2))) ∧
    (inFlight (zeros 1)).Inv ∧ (outcome .ptReadT (inFlight (zeros 1))).seq.busy = true ∧
    (outcome .rfSend (ready 0 2 (zeros 15))).Inv ∧ (outcome .rfSend (ready 0 2 (zeros 15))).rf.mode = .standby ∧
    (outcome .rfInit (ready 0 2 (zeros 3))).rf.mode = .sleep ∧ (outcome .rfInit (ready 0 2 (zeros 3))).Inv ∧
    (outcome .swReadT (ready 0 2 (zeros 1))).Inv ∧ (outcome .dspShowNum (number 12 (zeros 3))).Inv :=
  ⟨inv_of _ (by decide +kernel), rfl, inv_of _ (by decide +kernel), by decide +kernel,
    inv_of _ (by decide +kernel), by decide +kernel, by decide +kernel, inv_of _ (by decide +kernel),
    inv_of _ (by decide +kernel), inv_of _ (by decide +kernel)⟩

/-- Events before, between and after the answers, and between two steps that ask nothing. -/
theorem test_witness_RxEventsDoNotDisturb :
    ∃ s t t' : State,
      s.env.inputs = [.early (.rxEvent 1), .pass, .early (.rxEvent 4), .answer ⟨true, 0⟩, .ext (.rxEvent 2), .answer ⟨true, 27898⟩,
        .ext (.rxEvent 3)] ∧
      onlyRxEarly s.env.inputs = true ∧ exec .ptReadT s = .next t ∧
      exec .ptReadT (s.withInputs (withoutRxEvents s.env.inputs)) = .next t' :=
  ⟨ready 0 0 [.early (.rxEvent 1), .pass, .early (.rxEvent 4), .answer ⟨true, 0⟩, .ext (.rxEvent 2), .answer ⟨true, 27898⟩,
        .ext (.rxEvent 3)],
    _, _, rfl, by decide +kernel, rfl, rfl⟩

theorem test_witness_ResumeAfterWaiting :
    exec .ptReadT ((inFlight []).withInputs (zeros 1)) = .next (outcome .ptReadT ((inFlight []).withInputs (zeros 1))) ∧
    (inFlight []).seq.busy = true ∧ 1 ≤ (inFlight []).seq.phase ∧
    (outcome .ptReadT ((inFlight []).withInputs (zeros 1))).seq.busy = true ∧ quiet (zeros 1) = true :=
  ⟨exec_outcome _ _, by decide +kernel⟩

/-- As many answers as a single-wire read can take when both bounds are 2. -/
theorem test_witness_BoundedWaitsEnd :
    let s := given 3 (zeros 205)
    (s.idle ∧ s.cfg.swPollMax = some 2 ∧ 1 ≤ 2 ∧ s.cfg.rf.pollMax = some 2) ∧
    (∀ i : Instr, answersNeeded i s 2 2 ≤ (s.env.inputs.filter Input.isAnswer).length) ∧
    exec .swReadT s = .next (outcome .swReadT s) := by
  refine ⟨by decide +kernel, ?_, rfl⟩
  intro i
  cases i <;> decide +kernel

/-! ## … outside actions and missing answers while an operation is in flight -/

/-- R64, R66, R300: while `PT.READT` waits, a `CMD` write is dropped with `OVR`, a read of `STATUS` is exact, an
`RxEvent` is pending; then the operation goes on. -/
theorem test_busy_outside :
    let s := inFlight ([.ext (.hostWrite 0x000 0x42), .early (.hostRead 0x001), .ext (.rxEvent 7)] ++ zeros 2)
    let t := stepped { s with rf := { s.rf with rxie := true } }
    t.seq.ovr = true ∧ t.rf.rxpend = true ∧ t.env.hostReads = [⟨0x001, 0x0BB⟩] ∧ t.seq.busy = false ∧
    t.env.trace.length = 3 := by
  decide +kernel

/-- Every kind of action, followed by an answer and by nothing. -/
theorem test_witness_BusyTakesOutsideActions :
    ∀ e ∈ [External.hostRead 0x001, .hostRead 0x003, .hostWrite 0x000 0x42, .rxEvent 7, .hostWriteRx 0x001 0x40 7,
        .rst false],
      ∀ rest ∈ [zeros 1, []],
        inv (inFlight (.ext e :: rest)) = true ∧ inv (inFlight (.early e :: rest)) = true ∧
        (inFlight (.ext e :: rest)).env.rst = false ∧ (inFlight (.ext e :: rest)).seq.busy = true ∧
        (inFlight (.ext e :: rest)).env.inputs = .ext e :: rest ∧ (inFlight []).resetBy e = false ∧
        (inFlight []).seq.op ≠ 0x41 := by
  decide +kernel

/-- An operation of each unit with its last answer missing. -/
theorem test_witness_WaitsForAnswer :
    let as (n : Nat) : List Answer := List.replicate n ⟨true, 0⟩
    (ready 0 2 []).idle ∧
    (∀ c ∈ ([(.ptInit, 10), (.ptReadT, 1), (.ptReadP, 3), (.dspClear, 6), (.dspShowStr, 6), (.rfInit, 17)] :
        List (Instr × Nat)),
      let s := ready 0 2 (answers (as c.2))
      s.passesChecks c.1 = true ∧ s.env.inputs = answers (as c.2) ∧ (∀ a ∈ as c.2, a.ack = true) ∧
      (as c.2).length < answersNeeded c.1 s 0 0) ∧
    ((sized 8 8 (answers (as 31))).passesChecks .dspInit = true ∧
      (as 31).length < answersNeeded .dspInit (sized 8 8 []) 0 0 ∧
      (number 12 (answers (as 6))).passesChecks .dspShowNum = true) ∧
    ((ready 0 2 (answers (as 15))).passesChecks .rfSend = true ∧
      (as 15).length < 2 * (6 + (ready 0 2 []).host.len.toNat)) := by
  decide +kernel

/-- A whole line but for its last level (`SW.READT`, `SW.READH`). -/
theorem test_witness_WaitsForAnswer_singleWire :
    let ws := waves [0x32, 0x00, 0x18, 0x00, 0x4A]
    let line := handshakeLine 0 0 ++ bitsLine ws
    let as := (line.take 122).map level
    let s := given 3 (answers as)
    (s.idle ∧ s.passesChecks .swReadT = true ∧ s.passesChecks .swReadH = true ∧ s.env.inputs = answers as ∧
      ws.length = 40 ∧ (∀ w ∈ ws, w.low = 0 ∧ w.high = 0) ∧ answersOf as (line.take as.length) ∧
      as.length < line.length) ∧
    withinBound s.cfg.swPollMax 0 := by
  refine ⟨by decide +kernel, ?_⟩
  intro n h
  injection h with h
  omega

/-- Both bounds infinite: one read and three reads of the line, no flag read, half a flag read, two flag reads. -/
theorem test_witness_InfiniteBoundWaits :
    let free : Config := { cfg with swPollMax := none, rf := { cfg.rf with pollMax := none } }
    (∀ n ∈ [1, 3],
      let as := List.replicate n (level false)
      let s := { given 255 (answers as) with cfg := free }
      s.idle ∧ s.host.arg0.toNat ≤ 255 ∧ s.cfg.swPollMax = none ∧ s.env.inputs = answers as ∧ 1 ≤ as.length ∧
      answersOf as (List.replicate as.length false)) ∧
    ∀ n ∈ [16, 17, 20],
      let as := List.replicate n (level false)
      let s := { ready 255 2 (answers as) with cfg := free }
      s.idle ∧ 16 = 2 * (6 + s.host.len.toNat) ∧ s.host.arg0.toNat ≤ 255 ∧ s.host.len.toNat ≤ 254 ∧
      s.rf.init = true ∧ s.cfg.rf.pollMax = none ∧ s.env.inputs = answers as ∧ 16 ≤ as.length ∧
      ∀ k < as.length, 16 + 2 * k + 1 < as.length → flagIn s.cfg.rf as (16 + 2 * k + 1) = false := by
  decide +kernel

/-- R321: reset between S2 and S3 of a single-wire read, after the operand check and two steps: the pin was driven low
and the delay requested, the pull-up was not. -/
theorem test_reset_between_steps :
    let t := outcome .swReadT (given 3 [.pass, .pass, .pass, .early (.rst true)])
    t.env.trace.map (·.prim) = [.pinWrite 3 false, .delayMs 18] ∧ t.seq.busy = false ∧ t.env.rst = true := by
  decide +kernel

/-- The hypotheses of each clause, at the ends of the ranges of `k` and `j`. -/
theorem test_witness_ActionsLandBetweenSteps :
    ((∀ k ∈ [0, 4],
        (given 255 (List.replicate (k + 1) .pass ++ .early (.rst true) :: later)).env.inputs
          = List.replicate (k + 1) .pass ++ .early (.rst true) :: later ∧ k ≤ 4) ∧
      (∀ j ∈ [0, 5],
        (given 255 (List.replicate j .pass ++ [.early (.rxEvent 7)])).env.inputs
          = List.replicate j .pass ++ [.early (.rxEvent 7)] ∧ j ≤ 5) ∧
      (given 255 []).idle ∧ (given 255 []).host.arg0.toNat ≤ 255) ∧
    let ws := waves [0x32, 0x00, 0x18, 0x00, 0x4A]
    let as := (handshakeLine 0 0 ++ bitsLine ws).map level
    ws.length = 40 ∧ (∀ w ∈ ws, w.low = 0 ∧ w.high = 0) ∧ answersOf as (handshakeLine 0 0 ++ bitsLine ws) ∧
    (outcome .swReadT (given 255 (answers as ++ [.pass, .early (.hostRead 0x001)]))).env.hostReads
      = [⟨0x001, 0x105⟩] ∧
    (outcome .swReadT (given 255 (answers as ++ [.early (.hostRead 0x001)]))).env.hostReads = [⟨0x001, 0x001⟩] := by
  decide +kernel

/-- Runs of length 0 are within the bound of the instance under test. -/
theorem test_witness_ActionsLandBetweenSteps_bound : withinBound (given 255 []).cfg.swPollMax 0 := by
  intro n h
  injection h with h
  omega

end

end Sys2Proof.Tests
end

