-- ==== Sys2Proof/Proofs/Status.lean ====
section
/-! PROOFS. The register `STATUS` (10_state.md R32, R43): its fields, and what a host write to it does. -/

namespace Sys2Proof.Machine

/-! ## The fields of the word -/

/-- A field of a word survives shifting one bit in from the right, one place further up. -/
theorem extractLsb'_succ_concat {w : Nat} (x : BitVec w) (b : Bool) (i n : Nat) :
    (x.concat b).extractLsb' (i + 1) n = x.extractLsb' i n := by
  ext j hj
  simp [Nat.add_right_comm i 1 j, BitVec.getLsbD_concat_succ]

/-- Index 1 of the host window is `STATUS` (R42). -/
theorem hostValue_status (s : State) : s.hostValue 0x001 = s.status := rfl

/-- `SWSTAT` under the reserved bits, then one flag after the other shifted in from the right, `BUSY` last. -/
theorem status_eq_concat (s : State) :
    s.status =
      ((((((((0#21 ++ s.sw.stat.code).concat s.seq.ovr).concat s.rf.rxpend).concat s.rf.rxie).concat
        s.rf.init).concat s.dsp.init).concat s.sw.haveFrame).concat s.pt.init).concat s.seq.busy := rfl

/-- The flags, bits 0 to 7. -/
theorem status_flags (s : State) :
    s.status.getLsbD 0 = s.seq.busy ∧ s.status.getLsbD 1 = s.pt.init ∧ s.status.getLsbD 2 = s.sw.haveFrame ∧
    s.status.getLsbD 3 = s.dsp.init ∧ s.status.getLsbD 4 = s.rf.init ∧ s.status.getLsbD 5 = s.rf.rxie ∧
    s.status.getLsbD 6 = s.rf.rxpend ∧ s.status.getLsbD 7 = s.seq.ovr := by
  simp only [status_eq_concat, BitVec.getLsbD_concat_zero, BitVec.getLsbD_concat_succ, and_self]

/-- The code of `SWSTAT`, bits 10:8. -/
theorem status_swstat (s : State) : s.status.extractLsb 10 8 = s.sw.stat.code := by
  simp only [status_eq_concat, BitVec.extractLsb, extractLsb'_succ_concat]
  exact BitVec.extractLsb'_append_eq_right

/-- The reserved bits 31:11. -/
theorem status_reserved (s : State) : s.status.extractLsb 31 11 = 0 := by
  simp only [status_eq_concat, BitVec.extractLsb, extractLsb'_succ_concat]
  exact BitVec.extractLsb'_append_eq_left

theorem status_reset : State.reset.status = 0 := rfl

/-! ## The host's write -/

theorem and_not_eq_ite (b c : Bool) : (b && !c) = if c then false else b := by
  cases c <;> simp

/-- Idle, a write to `STATUS` clears the pending and the sticky bit where the word has a 1 (R43). -/
theorem hostWrite_status_idle (s : State) (v : Word) (h : s.idle) :
    s.hostWrite 0x001 v =
      { s with
        rf := { s.rf with rxpend := if v.getLsbD 6 then false else s.rf.rxpend }
        seq := { s.seq with ovr := if v.getLsbD 7 then false else s.seq.ovr } } := by
  have hidle : s.hostWrite 0x001 v = s.hostWriteIdle 0x001 v := by
    simp [State.hostWrite, h]
  have hclear : s.hostWriteIdle 0x001 v =
      { s with
        rf := { s.rf with rxpend := s.rf.rxpend && !v.getLsbD 6 }
        seq := { s.seq with ovr := s.seq.ovr && !v.getLsbD 7 } } := rfl
  rw [hidle, hclear, and_not_eq_ite, and_not_eq_ite]

/-- While `BUSY` = 1 it clears the pending bit only (R43, R66). -/
theorem hostWrite_status_busy (s : State) (v : Word) (h : s.seq.busy = true) :
    s.hostWrite 0x001 v =
      { s with rf := { s.rf with rxpend := if v.getLsbD 6 then false else s.rf.rxpend } } := by
  have hbusy : s.hostWrite 0x001 v = s.hostWriteBusy 0x001 v := by
    simp [State.hostWrite, h]
  have hclear : s.hostWriteBusy 0x001 v =
      if v.getLsbD 6 then { s with rf := { s.rf with rxpend := false } } else s := rfl
  rw [hbusy, hclear]
  split <;> rfl

/-! ## The statement -/

/-- Settles O9: the word field by field, and the write idle and busy. -/
theorem statusRegister : Obligations.StatusRegister := by
  intro s v
  simp only [hostValue_status]
  obtain ⟨busy, ptInit, haveFrame, dspInit, rfInit, rxie, rxpend, ovr⟩ := status_flags s
  exact ⟨busy, ptInit, haveFrame, dspInit, rfInit, rxie, rxpend, ovr, status_swstat s, rfl, rfl, rfl, rfl, rfl,
    status_reserved s, status_reset, hostWrite_status_idle s v, hostWrite_status_busy s v⟩

end Sys2Proof.Machine
end

