-- ==== Sys2Proof/Proofs/BusyWrites.lean ====
section
/-! PROOFS. What a host write does while an operation is in flight (20_memory.md R66). The index decides: dropped with
`OVR`, `STATUS` (`hostWrite_status_busy`), or read-only and reserved. -/

namespace Sys2Proof.Machine

/-! ## The kinds of index -/

/-- `CMD`, `ARG0` to `LEN`, and the window of `BUF`. -/
theorem droppedWhileBusy_iff (i : HostIndex) :
    droppedWhileBusy i = true ↔
      i.toNat = 0x000 ∨ (0x005 ≤ i.toNat ∧ i.toNat ≤ 0x008) ∨ (0x100 ≤ i.toNat ∧ i.toNat ≤ 0x1FF) := by
  simp only [droppedWhileBusy, Bool.or_eq_true, Bool.and_eq_true, decide_eq_true_eq, or_assoc, Nat.lt_succ_iff]

theorem ne_statusIndex_iff (i : HostIndex) : i ≠ statusIndex ↔ i.toNat ≠ 0x001 :=
  BitVec.toNat_inj.symm.not

/-- `STATUS` is not among the indices whose writes are dropped. -/
theorem ne_statusIndex_of_dropped {i : HostIndex} (hi : droppedWhileBusy i = true) : i ≠ statusIndex := by
  rw [droppedWhileBusy_iff] at hi
  rw [ne_statusIndex_iff]
  omega

/-! ## The host's write -/

theorem hostWrite_of_busy (s : State) (i : HostIndex) (v : Word) (h : s.seq.busy = true) :
    s.hostWrite i v = s.hostWriteBusy i v :=
  if_pos h

/-- A dropped write leaves its mark in `OVR` and nowhere else. -/
theorem hostWrite_dropped_busy (s : State) (i : HostIndex) (v : Word) (h : s.seq.busy = true)
    (hi : droppedWhileBusy i = true) :
    s.hostWrite i v = { s with seq := { s.seq with ovr := true } } := by
  rw [hostWrite_of_busy s i v h, State.hostWriteBusy, if_neg (ne_statusIndex_of_dropped hi), if_pos hi]

/-- A write to a read-only or reserved index leaves no mark at all. -/
theorem hostWrite_ignored_busy (s : State) (i : HostIndex) (v : Word) (h : s.seq.busy = true)
    (hstatus : i ≠ statusIndex) (hi : ¬ droppedWhileBusy i = true) : s.hostWrite i v = s := by
  rw [hostWrite_of_busy s i v h, State.hostWriteBusy, if_neg hstatus, if_neg hi]

/-! ## The statement -/

/-- Settles O11: each of its three ranges of indices is one of the three kinds. -/
theorem busyWritesDropped : Obligations.BusyWritesDropped := by
  intro s i v hbusy
  refine ⟨fun hdropped => ?_, ?_, fun hignored => ?_⟩
  · have hi : droppedWhileBusy i = true := by
      rw [droppedWhileBusy_iff]
      omega
    exact hostWrite_dropped_busy s i v hbusy hi
  · rintro rfl
    exact hostWrite_status_busy s v hbusy
  · have hstatus : i ≠ statusIndex := by
      rw [ne_statusIndex_iff]
      omega
    have hi : ¬ droppedWhileBusy i = true := by
      rw [droppedWhileBusy_iff]
      omega
    exact hostWrite_ignored_busy s i v hbusy hstatus hi

end Sys2Proof.Machine
end

section
/-! PROOFS. A command word that is no operation (30_encoding.md R104): a word the decoder accepts is one of the
thirteen of R100, every other word written to an idle ESPB is the illegal command of its low byte, and that operation
ends at its first step. -/

namespace Sys2Proof

/-! ## The words that decode -/

/-- The command words of R100. -/
def commandWords : List Word :=
  [0x10, 0x11, 0x12, 0x20, 0x21, 0x22, 0x30, 0x31, 0x32, 0x33, 0x40, 0x41, 0x42]

theorem encode_mem_commandWords (i : Instr) : encode i ∈ commandWords := by
  cases i <;> decide

/-- The table read by opcode agrees with the table read by operation. -/
theorem eq_opcodeOf_of_instrOfOpcode {opc : Byte} {i : Instr} (h : instrOfOpcode opc = some i) :
    opc = opcodeOf i := by
  have hrows : ∀ row ∈ opcodeRows, row.1 = opcodeOf row.2 := by decide
  obtain ⟨before, later, hsplit, -⟩ := List.lookup_eq_some_iff.mp h
  exact hrows (opc, i) (by simp [hsplit])

/-- The two fields of R101 make up the word. -/
theorem zeroField_append_opcField (w : Word) : zeroField w ++ opcField w = w :=
  BitVec.extractLsb'_append_extractLsb' (w := 24) (len := 8)

theorem opcField_eq_setWidth (w : Word) : opcField w = w.setWidth 8 := by
  rw [opcField, BitVec.setWidth_eq_extractLsb' (by decide)]

theorem eq_encode_of_decode {w : Word} {i : Instr} (h : decode w = .ok i) : w = encode i := by
  unfold decode at h
  split at h
  · cases h
  · rename_i hzero
    split at h
    · rename_i j hopc
      cases h
      have hfields := zeroField_append_opcField w
      rw [not_not.mp hzero, eq_opcodeOf_of_instrOfOpcode hopc] at hfields
      exact hfields.symm
    · cases h

theorem decode_error_of_not_mem {w : Word} (h : w ∉ commandWords) : ∃ e, decode w = .error e := by
  cases hw : decode w with
  | error e => exact ⟨e, rfl⟩
  | ok i => exact absurd (eq_encode_of_decode hw ▸ encode_mem_commandWords i) h

end Sys2Proof

namespace Sys2Proof.Machine

/-! ## The illegal command -/

/-- Its only step is the one that raises. -/
theorem illegalCommand_idle (s : State) (low : Byte) (hidle : s.idle) (hquiet : quiet s.env.inputs = true) :
    s.illegalCommand low = (s.withOp low).raise (.illegalCommand low) := by
  have hrun : runSteps [guardStep fun _ => some (.illegalCommand low)] 0 (s.start low) =
      .ended ((s.start low).raise (.illegalCommand low)) :=
    runSteps_ended hquiet (guardStep_some rfl)
  rw [State.illegalCommand, launch_idle s low _ hidle, hrun]
  rfl

theorem command_of_decode_error {w : Word} {e : DecodeError} (s : State) (h : decode w = .error e) :
    command w s = .next (s.illegalCommand (w.setWidth 8)) := by
  rw [command, h, opcField_eq_setWidth]

/-- What the word does once the input is taken. -/
theorem command_illegal (s : State) (w : Word) (h : w ∉ commandWords) (hidle : s.idle)
    (hquiet : quiet s.env.inputs = true) :
    command w s = .next ((s.withOp (w.setWidth 8)).raise (.illegalCommand (w.setWidth 8))) := by
  obtain ⟨e, hdecode⟩ := decode_error_of_not_mem h
  rw [command_of_decode_error s hdecode, illegalCommand_idle s _ hidle hquiet]

/-! ## The four forms of the write -/

theorem step_of_fetch_command {s t : State} {w : Word} (hidle : s.idle) (hrst : s.env.rst = false)
    (h : s.fetch = .command w t) : step s = command w t := by
  simp [step, hrst, hidle, h]

theorem fetch_hostWrite_cmd (s : State) (w : Word) (rest : List Input)
    (h : s.env.inputs = .ext (.hostWrite 0x000 w) :: rest ∨ s.env.inputs = .early (.hostWrite 0x000 w) :: rest) :
    s.fetch = .command w (s.withInputs rest) := by
  rcases h with h | h <;> simp [State.fetch, h, cmdIndex]

theorem fetch_hostWriteRx_cmd (s : State) (w num : Word) (rest : List Input)
    (h : s.env.inputs = .ext (.hostWriteRx 0x000 w num) :: rest ∨
      s.env.inputs = .early (.hostWriteRx 0x000 w num) :: rest) :
    s.fetch = .command w (s.withInputs rest).rxEvent := by
  rcases h with h | h <;> simp [State.fetch, h, cmdIndex]

/-- `RxEvent` does not look at the inputs. -/
theorem rxEvent_withInputs (s : State) (l : List Input) : (s.withInputs l).rxEvent = s.rxEvent.withInputs l := by
  by_cases h : s.rf.rxie = true <;> simp [State.rxEvent, h, State.withInputs]

theorem rxEvent_seq (s : State) : s.rxEvent.seq = s.seq := by
  unfold State.rxEvent
  split <;> rfl

/-- Taking an input and writing `OP` is all that `after` does when no event happens. -/
theorem withInputs_withOp (s : State) (opc : Byte) (rest : List Input) :
    (s.withInputs rest).withOp opc = s.after opc rest [] := by
  simp [State.withInputs, State.withOp, State.after]

/-! ## The statement -/

/-- Settles O3: in each form the step runs the word in a state that is idle with the rest of the inputs to come. -/
theorem illegalCommandRaises : Obligations.IllegalCommandRaises := by
  intro s w rest hw hidle hrst hquiet
  refine ⟨fun hwrite => ?_, fun num hwrite => ?_⟩
  · rw [step_of_fetch_command hidle hrst (fetch_hostWrite_cmd s w rest hwrite),
      command_illegal (s.withInputs rest) w hw hidle hquiet, withInputs_withOp]
  · have hidleRx : (s.rxEvent.withInputs rest).idle := by
      rw [State.idle, State.withInputs_seq, rxEvent_seq]
      exact hidle
    rw [step_of_fetch_command hidle hrst (fetch_hostWriteRx_cmd s w num rest hwrite), rxEvent_withInputs,
      command_illegal (s.rxEvent.withInputs rest) w hw hidleRx hquiet, withInputs_withOp]

end Sys2Proof.Machine
end

section
/-! PROOFS. Decimal text (30_encoding.md R116, 42_display.md R231): a sign in front of a negative number, then its
digits, which stand for the number, and whose first is 0 for the number 0 only. -/

namespace Sys2Proof.Machine

/-! ## The digits -/

/-- A digit character is no `-`, so a text of digits stands for their number. -/
theorem decimalValue_of_allDigits (l : List Byte) (h : allDigits l = true) : decimalValue l = digitsValue l := by
  cases l with
  | nil => rfl
  | cons c cs =>
    have hc : c ≠ 0x2D := by
      rintro rfl
      simp [allDigits] at h
    rw [decimalValue, if_neg hc, digitsValue]

theorem decimalValue_minus (l : List Byte) : decimalValue (0x2D :: l) = -(digitsValue l : Int) := by
  rw [decimalValue, if_pos rfl, digitsValue]

theorem digitCode_eq_zero {d : Nat} (hd : d < 10) (h : digitCode d = 0x30) : d = 0 := by
  have hcode := congrArg BitVec.toNat h
  rw [digitCode_toNat d hd] at hcode
  simpa using hcode

theorem decimalDigits_ne_nil (fuel n : Nat) (h : 0 < fuel) : decimalDigits fuel n ≠ [] :=
  List.ne_nil_of_length_pos (decimalDigits_length fuel n h).1

/-- No leading zero. -/
theorem decimalDigits_head?_ne_zero (fuel n : Nat) (hpos : 0 < n) (hfuel : n < 10 ^ fuel) :
    (decimalDigits fuel n).head? ≠ some 0x30 := by
  induction fuel generalizing n with
  | zero => omega
  | succ fuel ih =>
    unfold decimalDigits
    split
    · rename_i hdigit
      intro hhead
      have := digitCode_eq_zero hdigit (Option.some.inj hhead)
      omega
    · rw [pow_succ] at hfuel
      have hlead := ih (n / 10) (by omega) (by omega)
      have hne : decimalDigits fuel (n / 10) ≠ [] := by
        refine decimalDigits_ne_nil _ _ (Nat.pos_of_ne_zero ?_)
        rintro rfl
        omega
      rwa [List.head?_append_of_ne_nil _ hne]

/-- Zero in front means the number 0. -/
theorem decimalDigits_of_head?_zero (fuel n : Nat) (hfuel : n < 10 ^ (fuel + 1))
    (h : (decimalDigits (fuel + 1) n).head? = some 0x30) : decimalDigits (fuel + 1) n = [0x30] := by
  rcases Nat.eq_zero_or_pos n with rfl | hpos
  · rfl
  · exact absurd h (decimalDigits_head?_ne_zero _ n hpos hfuel)

/-! ## The text -/

theorem decimalText_of_neg {v : Int} (h : v < 0) : decimalText v = 0x2D :: decimalDigits 10 v.natAbs := if_pos h

theorem decimalText_of_not_neg {v : Int} (h : ¬ v < 0) : decimalText v = decimalDigits 10 v.natAbs := if_neg h

/-- Without its sign the text is the digits of the magnitude. -/
theorem decimalText_unsigned (v : Int) :
    (if v < 0 then (decimalText v).tail else decimalText v) = decimalDigits 10 v.natAbs := by
  split
  · rename_i h
    rw [decimalText_of_neg h, List.tail_cons]
  · rename_i h
    exact decimalText_of_not_neg h

theorem decimalValue_decimalText (v : Int) (h : v.natAbs < 10 ^ 10) : decimalValue (decimalText v) = v := by
  have hvalue := digitsValue_decimalDigits 10 v.natAbs h
  by_cases hneg : v < 0
  · rw [decimalText_of_neg hneg, decimalValue_minus, hvalue]
    omega
  · rw [decimalText_of_not_neg hneg, decimalValue_of_allDigits _ (decimalDigits_digits 10 _), hvalue]
    omega

theorem decimalText_length (v : Int) : 1 ≤ (decimalText v).length ∧ (decimalText v).length ≤ 11 := by
  obtain ⟨hone, hten⟩ := decimalDigits_length 10 v.natAbs (by decide)
  by_cases hneg : v < 0
  · rw [decimalText_of_neg hneg, List.length_cons]
    omega
  · rw [decimalText_of_not_neg hneg]
    omega

/-- A 32-bit number has at most ten digits. -/
theorem natAbs_toInt_lt (v : Word) : v.toInt.natAbs < 10 ^ 10 := by
  have hlow := BitVec.le_toInt v
  have hhigh := BitVec.toInt_lt (x := v)
  omega

/-! ## The statement -/

/-- Settles O32: the value and the length from the whole text, the rest from the digits without the sign. (The
obligation's own name in lower case is the model's function.) -/
theorem decimalText_correct : Obligations.DecimalText := by
  rintro v text digits rfl rfl
  rw [decimalText_unsigned]
  obtain ⟨hone, heleven⟩ := decimalText_length v.toInt
  have hsign : v.toInt < 0 → (decimalText v.toInt).head? = some 0x2D := fun hneg => by
    rw [decimalText_of_neg hneg, List.head?_cons]
  have hzero : decimalText (0 : Word).toInt = [0x30] := by decide
  have hleast : decimalText (0x80000000 : Word).toInt =
      [0x2D, 0x32, 0x31, 0x34, 0x37, 0x34, 0x38, 0x33, 0x36, 0x34, 0x38] := by decide
  have hgreatest : decimalText (0x7FFFFFFF : Word).toInt =
      [0x32, 0x31, 0x34, 0x37, 0x34, 0x38, 0x33, 0x36, 0x34, 0x37] := by decide
  exact ⟨decimalValue_decimalText _ (natAbs_toInt_lt v), hone, heleven, hsign,
    decimalDigits_digits 10 _, decimalDigits_ne_nil 10 _ (by decide),
    decimalDigits_of_head?_zero 9 _ (natAbs_toInt_lt v),
    fun h => h ▸ hzero, fun h => h ▸ hleast, fun h => h ▸ hgreatest⟩

end Sys2Proof.Machine
end

section
/-! PROOFS. Running an operation of PTC (40_compensator.md R140): the state in flight is named by its parts, so that
a step changes the phase, PTC's registers, the inputs left and the events, and nothing else. -/

namespace Sys2Proof.Machine

/-! ## The state in flight -/

/-- `s` with operation `opc` in flight at step `n`, PTC holding `pt`, the inputs left and the events added. -/
def State.inFlight (s : State) (opc : Byte) (n : Nat) (pt : Ptc) (rest : List Input) (events : List Event) : State :=
  { s with
    seq := { s.seq with busy := true, op := opc, phase := n, acc := 0, polls := 0, midRead := false }
    pt := pt
    env := { s.env with inputs := rest, trace := s.env.trace ++ events } }

theorem start_eq_inFlight (s : State) (opc : Byte) :
    s.start opc = s.inFlight opc 1 s.pt s.env.inputs [] := by
  simp [State.start, State.inFlight]

section
variable (s : State) (opc : Byte) (n : Nat) (pt : Ptc) (rest : List Input) (events : List Event)

theorem State.inFlight_nextPhase :
    (s.inFlight opc n pt rest events).nextPhase = s.inFlight opc (n + 1) pt rest events := rfl

theorem State.inFlight_record (p : Prim) (a : Answer) :
    (s.inFlight opc n pt rest events).record p a = s.inFlight opc n pt rest (events ++ [⟨p, a⟩]) := by
  simp [State.inFlight, State.record]

theorem State.inFlight_withInputs (l : List Input) :
    (s.inFlight opc n pt rest events).withInputs l = s.inFlight opc n pt l events := rfl

/-- The end of the operation leaves no trace of the step it was at. -/
theorem State.inFlight_raise (c : Cause) :
    (s.inFlight opc n pt rest events).raise c = { s.after opc rest events with pt := pt }.raise c := rfl

/-- The event `e` of an acknowledged access is added, and its data is stored. -/
theorem runSteps_access_ack {prim : State → Prim} {info : Byte} {f : BitVec 24 → State → State}
    {ms : List MicroStep} {a : Answer} {e : Event} {pt' : Ptc}
    (hprim : (⟨prim (s.inFlight opc n pt (.answer a :: rest) events),
      (prim (s.inFlight opc n pt (.answer a :: rest) events)).returns a⟩ : Event) = e)
    (hack : e.ans.ack = true)
    (hstore : f e.ans.data (s.inFlight opc n pt rest (events ++ [e])) =
      s.inFlight opc n pt' rest (events ++ [e])) :
    runSteps (twAccess prim info f :: ms) 0 (s.inFlight opc n pt (.answer a :: rest) events) =
      runSteps ms 0 (s.inFlight opc (n + 1) pt' rest (events ++ [e])) := by
  subst hprim
  rw [runSteps_go rfl (twAccess_ack rfl hack), State.inFlight_withInputs, State.inFlight_record, hstore,
    State.inFlight_nextPhase]

/-- An access that is not acknowledged adds its event, and ends the operation. -/
theorem runSteps_access_nack {prim : State → Prim} {info : Byte} {f : BitVec 24 → State → State}
    {ms : List MicroStep} {a : Answer} {e : Event}
    (hprim : (⟨prim (s.inFlight opc n pt (.answer a :: rest) events),
      (prim (s.inFlight opc n pt (.answer a :: rest) events)).returns a⟩ : Event) = e)
    (hnack : e.ans.ack = false) :
    runSteps (twAccess prim info f :: ms) 0 (s.inFlight opc n pt (.answer a :: rest) events) =
      .ended ({ s.after opc rest (events ++ [e]) with pt := pt }.raise (.busError info)) := by
  subst hprim
  rw [runSteps_ended rfl (twAccess_nack rfl hnack), State.inFlight_withInputs, State.inFlight_record,
    State.inFlight_raise]

theorem runSteps_delay {ms : List MicroStep} (k : Nat) (hquiet : quiet rest = true) :
    runSteps ((delayMsStep fun _ => k) :: ms) 0 (s.inFlight opc n pt rest events) =
      runSteps ms 0 (s.inFlight opc (n + 1) pt rest (events ++ [⟨.delayMs k, ⟨true, 0⟩⟩])) := by
  rw [runSteps_go hquiet (delayMsStep_go _ _), State.inFlight_record, State.inFlight_nextPhase]
  rfl

theorem runSteps_act {f : State → State} {ms : List MicroStep} {pt' : Ptc} (hquiet : quiet rest = true)
    (hf : f (s.inFlight opc n pt rest events) = s.inFlight opc n pt' rest events) :
    runSteps (act f :: ms) 0 (s.inFlight opc n pt rest events) =
      runSteps ms 0 (s.inFlight opc (n + 1) pt' rest events) := by
  rw [runSteps_go hquiet (act_go _ _), hf, State.inFlight_nextPhase]

end

/-! ## From the run to the meaning -/

section
variable {s : State} {i : Instr} {opc : Byte} {m : MicroStep} {ms : List MicroStep}

/-- An operation of an idle ESPB whose run ends is what the run leaves. -/
theorem exec_eq_of_runSteps {t : State} (hidle : s.idle) (harm : exec i s = .next (s.launch opc fun _ => ms))
    (hrun : runSteps ms 0 (s.start opc) = .ended t) : exec i s = .next t := by
  rw [harm, launch_idle s opc _ hidle, hrun, Stepped.state_ended]

/-- An operation whose first step raises changes nothing but `OP` and `CAUSE`. -/
theorem exec_eq_raise_of_first {c : Cause} (hidle : s.idle)
    (harm : exec i s = .next (s.launch opc fun _ => m :: ms)) (hquiet : quiet s.env.inputs = true)
    (hm : m (s.start opc) = .ended ((s.start opc).raise c)) : exec i s = .next ((s.withOp opc).raise c) :=
  exec_eq_of_runSteps hidle harm (runSteps_ended hquiet hm)

end

theorem exec_ptInit (s : State) : exec .ptInit s = .next (s.launch 0x10 fun _ => ptInitSteps) := rfl
theorem exec_ptReadT (s : State) : exec .ptReadT s = .next (s.launch 0x11 fun _ => ptReadTSteps) := rfl
theorem exec_ptReadP (s : State) : exec .ptReadP s = .next (s.launch 0x12 fun _ => ptReadPSteps) := rfl

end Sys2Proof.Machine
end

section
/-! PROOFS. `PT.INIT` (40_compensator.md R141): the calibration after the first reads, the events of those reads, and
the run up to the first read that is not acknowledged, or to the end. -/

namespace Sys2Proof.Machine

/-! ## The calibration set -/

/-- Writing one coefficient leaves the others; an index above 10 names none. -/
theorem CalSet.get_set (c : CalSet) {i : Nat} (j : Nat) (v : BitVec 16) (hi : i < 11) :
    (c.set j v).get i = if i = j then v else c.get i := by
  rcases Nat.lt_or_ge j 11 with hj | hj
  · interval_cases j <;> interval_cases i <;> rfl
  · obtain ⟨m, rfl⟩ := Nat.exists_eq_add_of_le' hj
    rw [if_neg (by omega)]
    rfl

/-- `CAL` after the first `d.length` reads have returned `d`. -/
def CalSet.load (c : CalSet) (d : List (BitVec 24)) : CalSet :=
  d.zipIdx.foldl (fun c p => c.set p.2 (p.1.setWidth 16)) c

theorem CalSet.load_concat (c : CalSet) (d : List (BitVec 24)) (x : BitVec 24) :
    c.load (d ++ [x]) = (c.load d).set d.length (x.setWidth 16) := by
  simp [CalSet.load, List.zipIdx_append]

theorem CalSet.get_load (c : CalSet) (d : List (BitVec 24)) {i : Nat} (hi : i < 11) :
    (c.load d).get i = if i < d.length then (d.getD i 0).setWidth 16 else c.get i := by
  induction d using List.reverseRecOn with
  | nil => rfl
  | append_singleton d x ih =>
    rw [CalSet.load_concat, CalSet.get_set _ _ _ hi, ih, List.length_append, List.length_singleton]
    rcases Nat.lt_trichotomy i d.length with hlt | rfl | hgt
    · rw [if_neg hlt.ne, if_pos hlt, if_pos (by omega), List.getD_append _ _ _ _ hlt]
    · simp
    · rw [if_neg hgt.ne', if_neg (by omega), if_neg (by omega)]

/-! ## The reads -/

/-- The access of calibration read `i`. -/
def coefficientPrim (c : PtConfig) (a : TwAddr) (i : Nat) : Prim :=
  if 3 ≤ i ∧ i ≤ 5 then .twRead16 a (calRegister c i) else .twReadS16 a (calRegister c i)

/-- Answered, it is the event the statement names. -/
theorem coefficientPrim_event (c : PtConfig) (a : TwAddr) (i : Nat) (ack : Bool) (x : BitVec 24) :
    (⟨coefficientPrim c a i, (coefficientPrim c a i).returns ⟨ack, x⟩⟩ : Event) = calEvent c a i ack x := by
  have hunsigned : (3 ≤ i ∧ i ≤ 5) ↔ (i = 3 ∨ i = 4 ∨ i = 5) := by omega
  by_cases h : i = 3 ∨ i = 4 ∨ i = 5 <;> simp [coefficientPrim, calEvent, calRegister, hunsigned, h]

/-- A register of 16 bits takes from a recorded 16-bit answer what it takes from the raw one. -/
theorem setWidth_low16 (x : BitVec 24) : ((x.setWidth 16).setWidth 24).setWidth 16 = x.setWidth 16 := by
  simp

/-- The events of the first `d.length` reads. -/
def calEvents (c : PtConfig) (a : TwAddr) (d : List (BitVec 24)) : List Event :=
  d.zipIdx.map fun p => calEvent c a p.2 true p.1

theorem calEvents_concat (c : PtConfig) (a : TwAddr) (d : List (BitVec 24)) (x : BitVec 24) :
    calEvents c a (d ++ [x]) = calEvents c a d ++ [calEvent c a d.length true x] := by
  simp [calEvents, List.zipIdx_append]

theorem calEvents_eq_range (c : PtConfig) (a : TwAddr) (d : List (BitVec 24)) (x : BitVec 24) :
    calEvents c a d = (List.range d.length).map fun i => calEvent c a i (decide (i < d.length)) (d.getD i x) := by
  apply List.ext_getElem (by simp [calEvents])
  intro i hi _
  have hlt : i < d.length := by simpa [calEvents] using hi
  simp [calEvents, hlt]

theorem acked_concat (d : List (BitVec 24)) (x : BitVec 24) (rest : List Input) :
    acked (d ++ [x]) ++ rest = acked d ++ .answer ⟨true, x⟩ :: rest := by
  simp [acked]

theorem quiet_acked_append (d : List (BitVec 24)) {rest : List Input} (h : quiet rest = true) :
    quiet (acked d ++ rest) = true := by
  cases d with
  | nil => exact h
  | cons x d => rfl

section
variable (s : State) (opc : Byte) (n : Nat) (pt : Ptc)

theorem runSteps_readCoefficient_ack (ms : List MicroStep) (i : Nat) (x : BitVec 24) (rest : List Input)
    (events : List Event) :
    runSteps (readCoefficient i :: ms) 0 (s.inFlight opc n pt (.answer ⟨true, x⟩ :: rest) events) =
      runSteps ms 0 (s.inFlight opc (n + 1) { pt with cal := pt.cal.set i (x.setWidth 16) } rest
        (events ++ [calEvent s.cfg.pt pt.addr i true x])) := by
  refine runSteps_access_ack s opc n pt rest events (coefficientPrim_event _ _ i true x) rfl ?_
  rw [← setWidth_low16 x]
  rfl

theorem runSteps_readCoefficient_nack (ms : List MicroStep) (i : Nat) (x : BitVec 24) (rest : List Input)
    (events : List Event) :
    runSteps (readCoefficient i :: ms) 0 (s.inFlight opc n pt (.answer ⟨false, x⟩ :: rest) events) =
      .ended ({ s.after opc rest (events ++ [calEvent s.cfg.pt pt.addr i false x]) with pt := pt }.raise
        (.busError (BitVec.ofNat 8 i))) :=
  runSteps_access_nack s opc n pt rest events (coefficientPrim_event _ _ i false x) rfl

/-- Reads that are acknowledged store what they return, one after the other. -/
theorem runSteps_readCoefficients (d : List (BitVec 24)) (rest : List Input) :
    runSteps ((List.range d.length).map readCoefficient) 0 (s.inFlight opc n pt (acked d ++ rest) []) =
      .go 0 (s.inFlight opc (n + d.length) { pt with cal := pt.cal.load d } rest
        (calEvents s.cfg.pt pt.addr d)) := by
  induction d using List.reverseRecOn generalizing rest with
  | nil => rfl
  | append_singleton d x ih =>
    rw [List.length_append, List.length_singleton, List.range_succ, List.map_append, runSteps_append,
      acked_concat, ih, CalSet.load_concat, calEvents_concat]
    exact runSteps_readCoefficient_ack s opc _ _ [] d.length x rest _

end

/-! ## The operation -/

/-- Read `k` stands after the reads before it. -/
theorem readCoefficients_split {k : Nat} (hk : k < 11) :
    ∃ later, (List.range 11).map readCoefficient =
      (List.range k).map readCoefficient ++ readCoefficient k :: later := by
  have hrange : List.range 11 = List.range k ++ k :: (List.range 11).drop (k + 1) := by
    have htake : (List.range 11).take k = List.range k := by rw [List.take_range, min_eq_left hk.le]
    have hdrop := List.drop_eq_getElem_cons (l := List.range 11) (i := k) (by simpa using hk)
    rw [List.getElem_range] at hdrop
    rw [← hdrop, ← htake, List.take_append_drop]
  exact ⟨((List.range 11).drop (k + 1)).map readCoefficient, by
    rw [← List.map_cons, ← List.map_append, ← hrange]⟩

/-- PTC with `PT_INIT` cleared and the address of `ARG0`. -/
def State.ptAddressed (s : State) : Ptc := { s.pt with init := false, addr := s.host.arg0.setWidth 7 }

/-- Steps 1 and 2: a legal operand brings the operation to its first read. -/
theorem runSteps_ptInit (s : State) (harg : s.host.arg0.toNat ≤ 0x7F) (hquiet : quiet s.env.inputs = true) :
    runSteps ptInitSteps 0 (s.start 0x10) =
      runSteps ((List.range 11).map readCoefficient ++ [finish fun s => { s with pt.init := true }]) 0
        (s.inFlight 0x10 3 s.ptAddressed s.env.inputs []) := by
  have haddr : s.host.arg0.extractLsb' 0 7 = s.host.arg0.setWidth 7 := by
    rw [BitVec.setWidth_eq_extractLsb' (by decide)]
  have hlegal : guardStep (fun s => arg0Above s.operands 0x7F) (s.start 0x10) = .go 0 (s.start 0x10) :=
    guardStep_none (if_neg (Nat.not_lt.mpr harg))
  refine (runSteps_go (s := s.start 0x10) hquiet hlegal).trans ?_
  rw [start_eq_inFlight, State.ptAddressed, ← haddr]
  exact runSteps_act s 0x10 2 s.pt s.env.inputs [] hquiet rfl

/-- R141, an illegal address. -/
theorem exec_ptInit_illegal (s : State) (hidle : s.idle) (harg : 0x7F < s.host.arg0.toNat)
    (hquiet : quiet s.env.inputs = true) :
    exec .ptInit s = .next ((s.withOp 0x10).raise (.illegalOperand 0)) :=
  exec_eq_raise_of_first hidle (exec_ptInit s) hquiet (guardStep_some (if_pos harg))

/-- R141, all reads acknowledged. -/
theorem exec_ptInit_completes (s : State) (hidle : s.idle) (harg : s.host.arg0.toNat ≤ 0x7F)
    (d : List (BitVec 24)) (rest : List Input) (hd : d.length = 11) (hin : s.env.inputs = acked d ++ rest)
    (hquiet : quiet rest = true) :
    exec .ptInit s = .next ({ s.after 0x10 rest (calEvents s.cfg.pt (s.host.arg0.setWidth 7) d) with
      pt := { s.pt with init := true, addr := s.host.arg0.setWidth 7, cal := s.pt.cal.load d } }.done) := by
  refine exec_eq_of_runSteps hidle (exec_ptInit s) ?_
  rw [runSteps_ptInit s harg (hin ▸ quiet_acked_append d hquiet), hin, ← hd, runSteps_append,
    runSteps_readCoefficients]
  exact runSteps_ended hquiet (finish_ended _ _)

/-- R141, read `d.length` the first that is not acknowledged. -/
theorem exec_ptInit_fails (s : State) (hidle : s.idle) (harg : s.host.arg0.toNat ≤ 0x7F)
    (d : List (BitVec 24)) (x : BitVec 24) (rest : List Input) (hd : d.length < 11)
    (hin : s.env.inputs = acked d ++ .answer ⟨false, x⟩ :: rest) :
    exec .ptInit s = .next ({ s.after 0x10 rest (calEvents s.cfg.pt (s.host.arg0.setWidth 7) d ++
        [calEvent s.cfg.pt (s.host.arg0.setWidth 7) d.length false x]) with
      pt := { s.pt with init := false, addr := s.host.arg0.setWidth 7, cal := s.pt.cal.load d } }.raise
        (.busError (BitVec.ofNat 8 d.length))) := by
  obtain ⟨later, hsplit⟩ := readCoefficients_split hd
  refine exec_eq_of_runSteps hidle (exec_ptInit s) ?_
  rw [runSteps_ptInit s harg (hin ▸ quiet_acked_append d rfl), hin, hsplit, List.append_assoc, runSteps_append,
    runSteps_readCoefficients]
  exact runSteps_readCoefficient_nack s _ _ _ _ d.length x rest _

/-! ## The statement -/

/-- Settles O17: the operand decides first, then the first read that is not acknowledged, if there is one. -/
theorem ptInit : Obligations.PtInit := by
  intro s hidle
  refine ⟨exec_ptInit_illegal s hidle, fun harg d rest => ⟨fun hd hin hquiet => ?_, fun x hd hin => ?_⟩⟩
  · refine ⟨s.pt.cal.load d, fun i hi => ?_, ?_⟩
    · rw [CalSet.get_load _ _ hi, if_pos (hd ▸ hi)]
    · have hevents : calEvents s.cfg.pt (s.host.arg0.setWidth 7) d =
          (List.range 11).map fun i => calEvent s.cfg.pt (s.host.arg0.setWidth 7) i true (d.getD i 0) := by
        rw [calEvents_eq_range _ _ d 0, hd]
        exact List.map_congr_left fun i hi => by rw [decide_eq_true (List.mem_range.mp hi)]
      rw [exec_ptInit_completes s hidle harg d rest hd hin hquiet, hevents]
  · refine ⟨s.pt.cal.load d, fun i hi => CalSet.get_load _ _ hi, ?_⟩
    rw [exec_ptInit_fails s hidle harg d x rest hd hin, calEvents_eq_range _ _ d x, List.range_succ,
      List.map_append, List.map_singleton, decide_eq_false (lt_irrefl _), List.getD_eq_default _ _ le_rfl]

end Sys2Proof.Machine
end

section
/-! PROOFS. The ranges of the first stage (40_compensator.md R146, R147). -/

namespace Sys2Proof.Machine

/-! ## Products and quotients within bounds -/

theorem toInt_bounds_16 (v : BitVec 16) : -32768 ≤ v.toInt ∧ v.toInt ≤ 32767 := by
  have hlow := BitVec.le_toInt v
  have hhigh := BitVec.toInt_lt (x := v)
  omega

/-- A factor that is no negative number and at most `n` stretches a bound by `n`. -/
theorem mul_bounds {a b m n : Int} (hlow : -m ≤ a) (hhigh : a ≤ m) (hm : 0 ≤ m) (hb : 0 ≤ b) (hn : b ≤ n) :
    -(m * n) ≤ a * b ∧ a * b ≤ m * n := by
  rw [← abs_le, abs_mul, abs_of_nonneg hb]
  exact mul_le_mul (abs_le.mpr ⟨hlow, hhigh⟩) hn hb hm

/-- Floor division by a positive number leaves a bound on the magnitude as it is. -/
theorem fdiv_bounds_of_pos {a b n : Int} (hlow : -n ≤ a) (hhigh : a ≤ n) (hb : 0 < b) :
    -n ≤ Int.fdiv a b ∧ Int.fdiv a b ≤ n := by
  have hn : 0 ≤ n := by omega
  have hstretch : n ≤ n * b := le_mul_of_one_le_right hn hb
  rw [Int.fdiv_eq_ediv_of_nonneg _ hb.le]
  refine ⟨Int.le_ediv_of_mul_le hb ?_, Int.ediv_le_of_le_mul hb (by omega)⟩
  rw [Int.neg_mul]
  omega

/-- Floor division by any number does, since the signs of both may be changed. -/
theorem fdiv_bounds {a n : Int} (b : Int) (hlow : -n ≤ a) (hhigh : a ≤ n) :
    -n ≤ Int.fdiv a b ∧ Int.fdiv a b ≤ n := by
  rcases lt_trichotomy b 0 with hneg | rfl | hpos
  · rw [← Int.neg_fdiv_neg]
    exact fdiv_bounds_of_pos (by omega) (by omega) (by omega)
  · rw [Int.fdiv_zero]
    omega
  · exact fdiv_bounds_of_pos hlow hhigh hpos

/-! ## The numbers of the first stage -/

theorem specX1_numerator_bounds (c : CalSet) {ut : Nat} (h : ut ≤ 65535) :
    -4294836225 ≤ ((ut : Int) - c.ac6.toNat) * c.ac5.toNat ∧
    ((ut : Int) - c.ac6.toNat) * c.ac5.toNat ≤ 4294836225 := by
  have hac5 := c.ac5.isLt
  have hac6 := c.ac6.isLt
  exact mul_bounds (m := 65535) (n := 65535) (by omega) (by omega) (by omega) (by omega) (by omega)

theorem specX1_bounds (c : CalSet) {ut : Nat} (h : ut ≤ 65535) :
    -131069 ≤ specX1 c ut ∧ specX1 c ut ≤ 131068 := by
  obtain ⟨hlow, hhigh⟩ := specX1_numerator_bounds c h
  rw [specX1, Int.fdiv_eq_ediv_of_nonneg _ (by decide)]
  omega

/-- `X2` of R143 step M5, a zero divisor giving 0 as `Int.fdiv` does. -/
theorem specB5_sub_specX1 (c : CalSet) (ut : Nat) :
    specB5 c ut - specX1 c ut = Int.fdiv (c.mc.toInt * 2048) (specX1 c ut + c.md.toInt) := by
  rw [specB5]
  split
  · rename_i hzero
    rw [hzero, Int.fdiv_zero]
    omega
  · omega

theorem specX2_bounds (c : CalSet) (ut : Nat) :
    -67108864 ≤ specB5 c ut - specX1 c ut ∧ specB5 c ut - specX1 c ut ≤ 67108864 := by
  have hmc := toInt_bounds_16 c.mc
  rw [specB5_sub_specX1]
  exact fdiv_bounds _ (by omega) (by omega)

theorem specB5_bounds (c : CalSet) {ut : Nat} (h : ut ≤ 65535) :
    -(67108864 + 131069) ≤ specB5 c ut ∧ specB5 c ut ≤ 67108864 + 131069 := by
  have hx1 := specX1_bounds c h
  have hx2 := specX2_bounds c ut
  omega

theorem specT10_bounds (c : CalSet) {ut : Nat} (h : ut ≤ 65535) :
    -4202496 ≤ Int.fdiv (specB5 c ut + 8) 16 ∧ Int.fdiv (specB5 c ut + 8) 16 ≤ 4202496 := by
  have hx1 := specX1_bounds c h
  have hx2 := specX2_bounds c ut
  rw [Int.fdiv_eq_ediv_of_nonneg _ (by decide)]
  omega

/-- The register `B5` holds the number. -/
theorem specB5_toInt (c : CalSet) {ut : Nat} (h : ut ≤ 65535) :
    (BitVec.ofInt 32 (specB5 c ut)).toInt = specB5 c ut := by
  have hb5 := specB5_bounds c h
  exact BitVec.toInt_ofInt_eq_self (by decide) (by omega) (by omega)

/-! ## The statement -/

/-- A calibration set with the least `MC`, whose `X1` is 0 for the sample 0, so that `MD` is the divisor. -/
def CalSet.leastMc (md : BitVec 16) : CalSet := { CalSet.zero with mc := 0x8000, md := md }

/-- Settles O19: the divisor 1 and the divisor −1 with the least `MC`, and the bounds one after the other. -/
theorem firstStageRanges : Obligations.FirstStageRanges := by
  refine ⟨⟨CalSet.leastMc 1, by decide⟩, ⟨CalSet.leastMc 0xFFFF, by decide⟩, fun c ut hut => ?_⟩
  have hac6 := c.ac6.isLt
  have hmc := toInt_bounds_16 c.mc
  have hmd := toInt_bounds_16 c.md
  have hx1 := specX1_bounds c hut
  have ht10 := specT10_bounds c hut
  exact ⟨by omega, specX1_numerator_bounds c hut, hx1, by omega, by omega, specX2_bounds c ut,
    specB5_bounds c hut, ht10, specB5_toInt c hut,
    BitVec.toInt_ofInt_eq_self (by decide) (by omega) (by omega)⟩

end Sys2Proof.Machine
end

section
/-! PROOFS. The readings of PTC (40_compensator.md R143, R144, R148, R150): the run of `MeasureT` once, for both
readings; the outcomes of `PT.READT`, the completion of `PT.READP`, and that their results depend on the samples and
the calibration only. -/

namespace Sys2Proof.Machine

/-! ## `MeasureT` -/

/-- PTC after `MeasureT` with the raw sample `x`. -/
def State.ptMeasured (s : State) (x : BitVec 24) : Ptc :=
  { s.pt with
    ut := x.setWidth 16, b5 := BitVec.ofInt 32 (compB5 s.cfg.pt.div0 s.pt.cal.coefs (x.setWidth 16)) }

section
variable (s : State) (opc : Byte) (n : Nat) (ms : List MicroStep) (x y : BitVec 24) (rest : List Input)

/-- M1, not acknowledged. -/
theorem runSteps_measureT_noCommand :
    runSteps (measureT ++ ms) 0 (s.inFlight opc n s.pt (.answer ⟨false, y⟩ :: rest) []) =
      .ended ((s.after opc rest [writeEvent s.pt.addr s.cfg.pt.regCtrl s.cfg.pt.cmdTemp false]).raise
        (.busError 11)) :=
  runSteps_access_nack s opc n s.pt rest [] rfl rfl

/-- M1 and M2: the command and the delay. -/
theorem runSteps_measureT_command (l : List Input) (hquiet : quiet l = true) :
    runSteps (measureT ++ ms) 0 (s.inFlight opc n s.pt (.answer ⟨true, y⟩ :: l) []) =
      runSteps (measureT.drop 2 ++ ms) 0 (s.inFlight opc (n + 2) s.pt l
        [writeEvent s.pt.addr s.cfg.pt.regCtrl s.cfg.pt.cmdTemp true, ⟨.delayMs 5, ⟨true, 0⟩⟩]) :=
  (runSteps_access_ack s opc n s.pt l [] rfl rfl rfl).trans (runSteps_delay s opc (n + 1) s.pt l _ 5 hquiet)

theorem sampleEvent (a : TwAddr) (r : Byte) (ack : Bool) (x : BitVec 24) :
    (⟨.twRead16 a r, (Prim.twRead16 a r).returns ⟨ack, x⟩⟩ : Event) =
      ⟨.twRead16 a r, ⟨ack, (x.setWidth 16).setWidth 24⟩⟩ := by
  rw [Prim.returns_twRead16]

/-- M3, not acknowledged. -/
theorem runSteps_measureT_noSample :
    runSteps (measureT ++ ms) 0
        (s.inFlight opc n s.pt (.answer ⟨true, y⟩ :: .answer ⟨false, x⟩ :: rest) []) =
      .ended ((s.after opc rest (measureEvents s false x)).raise (.busError 12)) := by
  rw [runSteps_measureT_command s opc n ms y _ rfl]
  exact runSteps_access_nack s opc _ s.pt rest _ (sampleEvent _ _ false x) rfl

/-- M1 to M6. -/
theorem runSteps_measureT (hquiet : quiet rest = true) :
    runSteps (measureT ++ ms) 0
        (s.inFlight opc n s.pt (.answer ⟨true, y⟩ :: .answer ⟨true, x⟩ :: rest) []) =
      runSteps ms 0 (s.inFlight opc (n + 4) (s.ptMeasured x) rest (measureEvents s true x)) := by
  rw [runSteps_measureT_command s opc n ms y _ rfl]
  refine (runSteps_access_ack s opc (n + 2) s.pt rest _ (pt' := { s.pt with ut := x.setWidth 16 })
    (sampleEvent _ _ true x) rfl ?_).trans (runSteps_act s opc (n + 3) _ rest _ hquiet rfl)
  exact congrArg (fun u => s.inFlight opc (n + 2) { s.pt with ut := u } rest _) (setWidth_low16 x)

end

/-! ## The guard of a reading -/

/-- A reading by an initialised PTC is what its steps after the guard leave. -/
theorem exec_eq_of_reading {s t : State} {i : Instr} {opc : Byte} {ms : List MicroStep} (hidle : s.idle)
    (hinit : s.pt.init = true) (hquiet : quiet s.env.inputs = true)
    (harm : exec i s = .next (s.launch opc fun _ => needsInit (fun s => s.pt.init) 1 :: ms))
    (hrun : runSteps ms 0 (s.inFlight opc 2 s.pt s.env.inputs []) = .ended t) : exec i s = .next t := by
  have hguard : needsInit (fun s => s.pt.init) 1 (s.start opc) = .go 0 (s.start opc) := needsInit_set hinit
  refine exec_eq_of_runSteps hidle harm ?_
  rw [runSteps_go (s := s.start opc) hquiet hguard, start_eq_inFlight, State.inFlight_nextPhase, hrun]

/-! ## `PT.READT` -/

/-- R144 for every `DIV0`. -/
theorem exec_ptReadT_completes (s : State) (hidle : s.idle) (hinit : s.pt.init = true) (x y : BitVec 24)
    (rest : List Input) (hin : s.env.inputs = .answer ⟨true, y⟩ :: .answer ⟨true, x⟩ :: rest)
    (hquiet : quiet rest = true) :
    exec .ptReadT s = .next ({ s.after 0x11 rest (measureEvents s true x) with
      pt := s.ptMeasured x
      host := { s.host with
        ret0 := BitVec.ofInt 32 (compT10 s.cfg.pt.div0 (s.ptMeasured x).b5)
        ret1 := (s.ptMeasured x).b5 } }.done) := by
  refine exec_eq_of_reading hidle hinit (hin ▸ rfl) (exec_ptReadT s) ?_
  rw [hin]
  refine (runSteps_measureT s 0x11 2 _ x y rest hquiet).trans ?_
  exact runSteps_ended hquiet (finish_ended _ _)

/-- The machine's `B5` is the number of R143 where `DIV0` is 0. -/
theorem compB5_eq_specB5 (c : CalSet) (ut : BitVec 16) : compB5 0 c.coefs ut = specB5 c ut.toNat := rfl

theorem compT10_specB5 (c : CalSet) (ut : BitVec 16) :
    compT10 0 (BitVec.ofInt 32 (specB5 c ut.toNat)) = Int.fdiv (specB5 c ut.toNat + 8) 16 := by
  rw [compT10, specB5_toInt c (Nat.le_of_lt_succ ut.isLt), fdiv, if_neg (by decide)]

/-- Settles O18: the guard, the two accesses of `MeasureT` that can fail, and its whole run, whose numbers are the
spec's where `DIV0` is 0. -/
theorem ptReadTemperature : Obligations.PtReadTemperature := by
  intro s hidle
  refine ⟨fun hinit hquiet => ?_, fun hinit x y rest => ⟨fun hin => ?_, fun hin => ?_, fun hdiv0 hquiet hin => ?_⟩⟩
  · exact exec_eq_raise_of_first hidle (exec_ptReadT s) hquiet (needsInit_unset hinit)
  · refine exec_eq_of_reading hidle hinit (hin ▸ rfl) (exec_ptReadT s) ?_
    rw [hin]
    exact runSteps_measureT_noCommand s 0x11 2 _ y rest
  · refine exec_eq_of_reading hidle hinit (hin ▸ rfl) (exec_ptReadT s) ?_
    rw [hin]
    exact runSteps_measureT_noSample s 0x11 2 _ x y rest
  · rw [exec_ptReadT_completes s hidle hinit x y rest hin hquiet, State.ptMeasured, hdiv0, compB5_eq_specB5,
      compT10_specB5]

/-! ## `PT.READP` -/

/-- PTC after a whole `PT.READP` with the raw samples `x` and `r`. -/
def State.ptSampled (s : State) (x r : BitVec 24) : Ptc :=
  { s.ptMeasured x with up := (r >>> s.cfg.pt.upShift).setWidth 19 }

/-- The pressure in Pa that `PT.READP` computes. -/
def State.pressureOf (s : State) (x r : BitVec 24) : Int :=
  compPressure s.cfg.pt s.pt.cal.coefs (s.ptMeasured x).b5 ((r >>> s.cfg.pt.upShift).setWidth 19)

/-- R150, all accesses acknowledged. -/
theorem exec_ptReadP_completes (s : State) (hidle : s.idle) (hinit : s.pt.init = true) (x y z r : BitVec 24)
    (rest : List Input)
    (hin : s.env.inputs =
      .answer ⟨true, y⟩ :: .answer ⟨true, x⟩ :: .answer ⟨true, z⟩ :: .answer ⟨true, r⟩ :: rest)
    (hquiet : quiet rest = true) :
    exec .ptReadP s = .next ({ s.after 0x12 rest
        (measureEvents s true x ++ [writeEvent s.pt.addr s.cfg.pt.regCtrl s.cfg.pt.cmdPres true,
          ⟨.delayMs 26, ⟨true, 0⟩⟩, ⟨.twRead24 s.pt.addr s.cfg.pt.regData, ⟨true, r⟩⟩]) with
      pt := s.ptSampled x r
      host := { s.host with
        ret0 := BitVec.ofInt 32 (compP10 s.cfg.pt (s.pressureOf x r))
        ret1 := BitVec.ofInt 32 (s.pressureOf x r) } }.done) := by
  refine exec_eq_of_reading hidle hinit (hin ▸ rfl) (exec_ptReadP s) ?_
  rw [hin]
  refine (runSteps_measureT s 0x12 2 _ x y _ rfl).trans ?_
  refine (runSteps_access_ack s 0x12 6 (s.ptMeasured x) _ _ rfl rfl rfl).trans ?_
  refine (runSteps_delay s 0x12 7 (s.ptMeasured x) _ _ 26 rfl).trans ?_
  refine (runSteps_access_ack s 0x12 8 (s.ptMeasured x) rest _ (pt' := s.ptSampled x r) rfl rfl rfl).trans ?_
  exact runSteps_ended hquiet (finish_ended _ _)

/-! ## The statement -/

section
variable {s t : State} {x x' r r' : BitVec 24} (hcfg : s.cfg.pt = t.cfg.pt) (hcal : s.pt.cal = t.pt.cal)
  (hut : (x.setWidth 16 : BitVec 16) = x'.setWidth 16)
include hcfg hcal hut

theorem ptMeasured_b5_congr : (s.ptMeasured x).b5 = (t.ptMeasured x').b5 := by
  rw [State.ptMeasured, State.ptMeasured, hcfg, hcal, hut]

theorem pressureOf_congr (hup : r >>> s.cfg.pt.upShift = r' >>> s.cfg.pt.upShift) :
    s.pressureOf x r = t.pressureOf x' r' := by
  rw [State.pressureOf, State.pressureOf, hup, ptMeasured_b5_congr hcfg hcal hut, hcfg, hcal]

end

/-- Settles O23: the results are functions of `B5`, or of the pressure, which agree. -/
theorem readingsArePure : Obligations.ReadingsArePure := by
  intro s t s' t' y x z r y' x' z' r' rest rest' hsIdle htIdle hsInit htInit hcfg hcal hut hquiet hquiet'
  refine ⟨fun hs ht hs' ht' => ?_, fun hup hs ht hs' ht' => ?_⟩
  · rw [exec_ptReadT_completes s hsIdle hsInit x y rest hs hquiet] at hs'
    rw [exec_ptReadT_completes t htIdle htInit x' y' rest' ht hquiet'] at ht'
    obtain rfl := Host.Outcome.next.inj hs'
    obtain rfl := Host.Outcome.next.inj ht'
    simp only [State.done_host, ptMeasured_b5_congr hcfg hcal hut, hcfg, and_self]
  · rw [exec_ptReadP_completes s hsIdle hsInit x y z r rest hs hquiet] at hs'
    rw [exec_ptReadP_completes t htIdle htInit x' y' z' r' rest' ht hquiet'] at ht'
    obtain rfl := Host.Outcome.next.inj hs'
    obtain rfl := Host.Outcome.next.inj ht'
    simp only [State.done_host, pressureOf_congr hcfg hcal hut hup, hcfg, and_self]

end Sys2Proof.Machine
end

section
/-! PROOFS. The line of SWD (41_single_wire.md R181): inputs that answer reads with given levels, and what comes of a
wait loop whose run stays within the bound, or reaches it. -/

namespace Sys2Proof.Machine

/-! ## The levels the line is read at -/

/-- `k` reads of the level a wait loop waits out, and the read of the other level that ends the wait. -/
def levelRun (stay : Bool) (k : Nat) : List Bool := List.replicate k stay ++ [!stay]

/-- The inputs `l` answer one read for each level of `line`, and go on with `rest`. -/
def lineThen (line : List Bool) (rest l : List Input) : Prop := ∃ as, answersOf as line ∧ l = answers as ++ rest

theorem lineThen_nil {rest l : List Input} : lineThen [] rest l ↔ l = rest := by
  simp [lineThen, answers]

theorem lineThen_append {line later : List Bool} {rest l : List Input} :
    lineThen (line ++ later) rest l ↔ ∃ mid, lineThen later rest mid ∧ lineThen line mid l := by
  constructor
  · rintro ⟨as, has, rfl⟩
    obtain ⟨before, after, rfl, hbefore, hafter⟩ := List.map_eq_append_iff.mp has
    exact ⟨answers after ++ rest, ⟨after, hafter, rfl⟩, before, hbefore, by simp [answers]⟩
  · rintro ⟨mid, ⟨after, rfl, rfl⟩, before, rfl, rfl⟩
    exact ⟨before ++ after, by simp [answersOf], by simp [answers]⟩

theorem lineThen_singleton {b : Bool} {rest l : List Input} :
    lineThen [b] rest l ↔ ∃ a : Answer, a.data.getLsbD 0 = b ∧ l = .answer a :: rest := by
  constructor
  · rintro ⟨as, has, rfl⟩
    obtain ⟨a, rfl, ha⟩ := List.map_eq_singleton_iff.mp has
    exact ⟨a, ha, rfl⟩
  · rintro ⟨a, ha, rfl⟩
    exact ⟨[a], congrArg (fun c => [c]) ha, rfl⟩

/-- No run of the bits reaches the poll bound. -/
abbrev wavesWithin (bound : Option Nat) (ws : List BitWave) : Prop :=
  ∀ w ∈ ws, withinBound bound w.low ∧ withinBound bound w.high

theorem quiet_of_lineThen {line : List Bool} {rest l : List Input} (h : lineThen line rest l) (hne : line ≠ []) :
    quiet l = true := by
  obtain ⟨as, rfl, rfl⟩ := h
  cases as with
  | nil => exact absurd rfl hne
  | cons a as => rfl

theorem quiet_of_lineThen_quiet {line : List Bool} {rest l : List Input} (h : lineThen line rest l)
    (hquiet : quiet rest = true) : quiet l = true := by
  cases line with
  | nil => rwa [lineThen_nil.mp h]
  | cons b line => exact quiet_of_lineThen h (List.cons_ne_nil b line)

theorem answersOf_replicate {as : List Answer} {b : Bool} {k : Nat} :
    answersOf as (List.replicate k b) ↔ as.length = k ∧ ∀ a ∈ as, a.data.getLsbD 0 = b := by
  simp [answersOf, List.eq_replicate_iff]

/-! ## The wait loop at its bound -/

/-- Reads after reads are reads. -/
theorem State.afterReads_afterReads (s : State) (as later : List Answer) (l rest : List Input) (k n : Nat) :
    (s.afterReads as l k).afterReads later rest n = s.afterReads (as ++ later) rest n := by
  simp [State.afterReads, State.pin]

/-- A read of the level waited out, short of the bound: the loop goes round. -/
theorem waitWhile_again {stay : Bool} {id : Byte} {s : State} {a : Answer} {rest : List Input}
    (hin : s.env.inputs = .answer a :: rest) (ha : a.data.getLsbD 0 = stay)
    (hbound : s.cfg.swPollMax ≠ some (s.seq.polls + 1)) :
    waitWhile stay id s = waitWhile stay id (s.afterReads [a] rest (s.seq.polls + 1)) := by
  rw [waitWhile, hin, serve_answer, level_returns, if_neg (not_not.mpr ha)]
  simp [waitWhile, hbound, State.afterReads, State.withInputs, State.record, pinEvent, State.pin]

/-- The same read at the bound: the operation is over. -/
theorem waitWhile_last {stay : Bool} {id : Byte} {s : State} {a : Answer} {rest : List Input}
    (hin : s.env.inputs = .answer a :: rest) (ha : a.data.getLsbD 0 = stay)
    (hbound : s.cfg.swPollMax = some (s.seq.polls + 1)) :
    waitWhile stay id s =
      .ended ({ s.afterReads [a] rest 0 with sw := { s.sw with stat := .timeout } }.raise (.timeout id)) := by
  rw [waitWhile, hin, serve_answer, level_returns, if_neg (not_not.mpr ha)]
  simp [hbound, State.afterReads, State.withInputs, State.record, pinEvent, State.pin, State.raise, State.endWith]

/-- The loop ends the operation when all the reads the bound allows return the level waited out. -/
theorem waitWhile_expires {stay : Bool} {id : Byte} {s : State} {as : List Answer} {rest : List Input}
    (hin : s.env.inputs = answers as ++ rest) (has : ∀ a ∈ as, a.data.getLsbD 0 = stay) (hne : as ≠ [])
    (hbound : s.cfg.swPollMax = some (s.seq.polls + as.length)) :
    waitWhile stay id s =
      .ended ({ s.afterReads as rest 0 with sw := { s.sw with stat := .timeout } }.raise (.timeout id)) := by
  induction as generalizing s with
  | nil => exact absurd rfl hne
  | cons a later ih =>
    have ha : a.data.getLsbD 0 = stay := has a List.mem_cons_self
    cases later with
    | nil => exact waitWhile_last hin ha hbound
    | cons b later =>
      have hshort : s.cfg.swPollMax ≠ some (s.seq.polls + 1) := by
        rw [hbound]
        simp
      have hlater : (s.afterReads [a] (answers (b :: later) ++ rest) (s.seq.polls + 1)).cfg.swPollMax =
          some (s.seq.polls + 1 + (b :: later).length) := by
        rw [Nat.add_assoc, Nat.add_comm 1]
        exact hbound
      rw [waitWhile_again (rest := answers (b :: later) ++ rest) hin ha hshort,
        ih rfl (fun x hx => has x (List.mem_cons_of_mem _ hx)) (List.cons_ne_nil _ _) hlater,
        State.afterReads_afterReads]
      rfl

end Sys2Proof.Machine
end

section
/-! PROOFS. `SwRead` (41_single_wire.md R183) step by step: the state in flight is named by its parts, and a run over
a piece of the line moves it on. -/

namespace Sys2Proof.Machine

/-! ## The state in flight -/

/-- `s` with the read `opc` in flight at step `n` and the line released: the bits sampled so far, the inputs left and
the events added. -/
def State.reading (s : State) (opc : Byte) (n : Nat) (acc : BitVec 40) (l : List Input) (events : List Event) :
    State :=
  { s with
    seq := { s.seq with
      busy := true, op := opc, phase := n, acc := acc, polls := 0, midRead := false, pinLow := none }
    env := { s.env with inputs := l, trace := s.env.trace ++ events } }

section
variable (s : State) (opc : Byte) (n : Nat) (acc : BitVec 40) (l rest : List Input) (events : List Event)

theorem State.reading_nextPhase :
    (s.reading opc n acc l events).nextPhase = s.reading opc (n + 1) acc l events := rfl

theorem State.reading_record (p : Prim) (a : Answer) :
    (s.reading opc n acc l events).record p a = s.reading opc n acc l (events ++ [⟨p, a⟩]) := by
  simp [State.reading, State.record]

theorem State.reading_withInputs :
    (s.reading opc n acc l events).withInputs rest = s.reading opc n acc rest events := rfl

theorem State.reading_afterReads {as : List Answer} {line : List Bool} (has : answersOf as line) :
    (s.reading opc n acc l events).afterReads as rest 0 =
      s.reading opc n acc rest (events ++ line.map (pinEvent s.pin)) := by
  subst has
  simp [State.reading, State.afterReads, State.pin]

end

/-! ## Wait loops and the sample -/

section
variable {s : State} {opc : Byte} {n : Nat} {acc : BitVec 40} {l rest : List Input} {events : List Event}
  {ms : List MicroStep}

/-- A wait within the bound. -/
theorem runSteps_wait_exit {stay : Bool} {id : Byte} {k : Nat} (hline : lineThen (levelRun stay k) rest l)
    (hbound : withinBound s.cfg.swPollMax k) :
    runSteps (waitWhile stay id :: ms) 0 (s.reading opc n acc l events) =
      runSteps ms 0 (s.reading opc (n + 1) acc rest (events ++ (levelRun stay k).map (pinEvent s.pin))) := by
  have hquiet : quiet l = true := quiet_of_lineThen hline (by simp [levelRun])
  obtain ⟨as, has, rfl⟩ := hline
  obtain ⟨stays, ends, rfl, hstays, hends⟩ := List.map_eq_append_iff.mp has
  obtain ⟨a, rfl, ha⟩ := List.map_eq_singleton_iff.mp hends
  obtain ⟨hlength, hlevel⟩ := answersOf_replicate.mp hstays
  have hexit : waitWhile stay id (s.reading opc n acc (answers (stays ++ [a]) ++ rest) events) =
      .go 0 ((s.reading opc n acc (answers (stays ++ [a]) ++ rest) events).afterReads (stays ++ [a]) rest 0) :=
    waitWhile_exit stay id _ stays a rest (by simp [State.reading, answers]) hlevel (ha ▸ Bool.not_ne_self stay)
      fun m hm => by simpa [State.reading, hlength] using hbound m hm
  rw [runSteps_go hquiet hexit, State.reading_afterReads (has := has), State.reading_nextPhase]

/-- A wait that reaches the bound. -/
theorem runSteps_wait_expires {stay : Bool} {id : Byte} {m : Nat}
    (hline : lineThen (List.replicate m stay) rest l) (hmax : s.cfg.swPollMax = some m) (hm : 1 ≤ m) :
    runSteps (waitWhile stay id :: ms) 0 (s.reading opc n acc l events) =
      .ended ({ s.after opc rest (events ++ List.replicate m (pinEvent s.pin stay)) with
        sw := { s.sw with stat := .timeout } }.raise (.timeout id)) := by
  have hquiet : quiet l = true := quiet_of_lineThen hline (by simp; omega)
  obtain ⟨as, has, rfl⟩ := hline
  obtain ⟨hlength, hlevel⟩ := answersOf_replicate.mp has
  have hexpires := waitWhile_expires (id := id) (s := s.reading opc n acc (answers as ++ rest) events) rfl hlevel
    (List.ne_nil_of_length_pos (by omega)) (by simp [State.reading, hmax, hlength])
  rw [runSteps_ended hquiet hexpires, State.reading_afterReads (has := has), List.map_replicate]
  rfl

theorem runSteps_sampleDelay (hquiet : quiet l = true) :
    runSteps (delayUsStep Config.swSampleUs :: ms) 0 (s.reading opc n acc l events) =
      runSteps ms 0 (s.reading opc (n + 1) acc l (events ++ [⟨.delayUs 28, ⟨true, 0⟩⟩])) := by
  rw [runSteps_go hquiet (delayUsStep_go _ _), State.reading_record, State.reading_nextPhase]
  rfl

/-- The accumulator with one more bit (R183 S11). -/
def sampled (acc : BitVec 40) (b : Bool) : BitVec 40 := (acc <<< 1) ||| (BitVec.ofBool b).setWidth 40

/-- The third step of a bit. -/
def sampleStep : MicroStep :=
  ask (fun s => .pinRead s.pin) fun a s => .go 0 { s with seq.acc := sampled s.seq.acc a.level }

theorem sampleBit_eq (i : Nat) :
    sampleBit i = [waitWhile false (BitVec.ofNat 8 (0x40 + i)), delayUsStep Config.swSampleUs, sampleStep,
      waitWhile true (BitVec.ofNat 8 (0x80 + i))] := rfl

theorem runSteps_sample {b : Bool} (hline : lineThen [b] rest l) :
    runSteps (sampleStep :: ms) 0 (s.reading opc n acc l events) =
      runSteps ms 0 (s.reading opc (n + 1) (sampled acc b) rest (events ++ [pinEvent s.pin b])) := by
  obtain ⟨a, rfl, rfl⟩ := lineThen_singleton.mp hline
  rw [runSteps_go rfl (ask_answer rfl), level_returns, State.reading_withInputs, State.reading_record,
    Prim.returns_pinRead]
  rfl

/-! ## The bits -/

/-- One bit: the rise, the delay, the sample, the fall (R183 S9 to S12). -/
theorem runSteps_sampleBit {i : Nat} {w : BitWave} (hline : lineThen (bitsLine [w]) rest l)
    (hlow : withinBound s.cfg.swPollMax w.low) (hhigh : withinBound s.cfg.swPollMax w.high) :
    runSteps (sampleBit i ++ ms) 0 (s.reading opc n acc l events) =
      runSteps ms 0 (s.reading opc (n + 4) (sampled acc w.bit) rest (events ++ bitsEvents s.pin [w])) := by
  have hpieces : bitsLine [w] = levelRun false w.low ++ ([w.bit] ++ levelRun true w.high) := by
    simp [bitsLine, levelRun]
  rw [hpieces, lineThen_append] at hline
  obtain ⟨afterRise, hline, hrise⟩ := hline
  obtain ⟨afterSample, hfall, hsample⟩ := lineThen_append.mp hline
  refine (runSteps_wait_exit hrise hlow).trans ?_
  refine (runSteps_sampleDelay (quiet_of_lineThen hsample (by simp))).trans ?_
  refine (runSteps_sample hsample).trans ((runSteps_wait_exit hfall hhigh).trans ?_)
  simp [bitsEvents, levelRun]

/-- The accumulator after the bits `ws`. -/
def sampledAll (acc : BitVec 40) (ws : List BitWave) : BitVec 40 := ws.foldl (fun acc w => sampled acc w.bit) acc

/-- Bits `i` and on. -/
theorem runSteps_sampleBits {ws : List BitWave} {i : Nat} (hline : lineThen (bitsLine ws) rest l)
    (hbound : wavesWithin s.cfg.swPollMax ws) :
    runSteps ((List.range' i ws.length).flatMap sampleBit ++ ms) 0 (s.reading opc n acc l events) =
      runSteps ms 0 (s.reading opc (n + 4 * ws.length) (sampledAll acc ws) rest
        (events ++ bitsEvents s.pin ws)) := by
  induction ws generalizing i n acc l events with
  | nil =>
    obtain rfl := lineThen_nil.mp hline
    simp [bitsEvents, sampledAll]
  | cons w ws ih =>
    have hfirst : bitsLine (w :: ws) = bitsLine [w] ++ bitsLine ws := by simp [bitsLine]
    rw [hfirst, lineThen_append] at hline
    obtain ⟨mid, hlater, hw⟩ := hline
    obtain ⟨hlow, hhigh⟩ := hbound w List.mem_cons_self
    have hevents : bitsEvents s.pin (w :: ws) = bitsEvents s.pin [w] ++ bitsEvents s.pin ws := by simp [bitsEvents]
    rw [List.length_cons, List.range'_succ, List.flatMap_cons, List.append_assoc, runSteps_sampleBit hw hlow hhigh,
      ih hlater fun v hv => hbound v (List.mem_cons_of_mem _ hv), hevents, List.append_assoc]
    congr 2
    omega

/-- All forty bits. -/
theorem runSteps_sampleBits_all {ws : List BitWave} (hlength : ws.length = 40)
    (hline : lineThen (bitsLine ws) rest l) (hbound : wavesWithin s.cfg.swPollMax ws) :
    runSteps ((List.range 40).flatMap sampleBit ++ ms) 0 (s.reading opc n acc l events) =
      runSteps ms 0 (s.reading opc (n + 160) (sampledAll acc ws) rest (events ++ bitsEvents s.pin ws)) := by
  have hrun := runSteps_sampleBits (ms := ms) (opc := opc) (n := n) (acc := acc) (events := events) (i := 0) hline
    hbound
  rwa [hlength, ← List.range_eq_range'] at hrun

/-- The bits before bit `ws.length` bring the operation to that bit. -/
theorem runSteps_toBit {ws : List BitWave} (hlength : ws.length < 40) (hline : lineThen (bitsLine ws) rest l)
    (hbound : wavesWithin s.cfg.swPollMax ws) :
    ∃ later, runSteps ((List.range 40).flatMap sampleBit ++ ms) 0 (s.reading opc n acc l events) =
      runSteps (sampleBit ws.length ++ later) 0 (s.reading opc (n + 4 * ws.length) (sampledAll acc ws) rest
        (events ++ bitsEvents s.pin ws)) := by
  have hsplit : List.range 40 =
      List.range' 0 ws.length ++ ws.length :: List.range' (ws.length + 1) (39 - ws.length) := by
    rw [List.range_eq_range', ← List.range'_succ, List.range'_eq_append_iff]
    exact ⟨ws.length, hlength.le, rfl, by simp; omega⟩
  refine ⟨(List.range' (ws.length + 1) (39 - ws.length)).flatMap sampleBit ++ ms, ?_⟩
  rw [hsplit, List.flatMap_append, List.flatMap_cons, List.append_assoc, runSteps_sampleBits hline hbound,
    List.append_assoc]

end

/-! ## The frame -/

theorem sampled_ofNat (n : Nat) (b : Bool) :
    sampled (BitVec.ofNat 40 n) b = BitVec.ofNat 40 (2 * n + b.toNat) := by
  have hdisjoint : (BitVec.ofNat 40 n <<< 1) &&& (BitVec.ofBool b).setWidth 40 = 0#40 := by
    ext i hi
    cases i <;> simp
  rw [sampled, ← BitVec.add_eq_or_of_and_eq_zero _ _ hdisjoint]
  apply BitVec.eq_of_toNat_eq
  have hb : b.toNat < 2 := Bool.toNat_lt b
  simp [Nat.shiftLeft_eq]
  omega

/-- The accumulator holds the bits, the first the most significant. -/
theorem sampledAll_zero (ws : List BitWave) : sampledAll 0 ws = frameOf ws :=
  List.foldl_hom (g₁ := fun n (w : BitWave) => 2 * n + w.bit.toNat) (BitVec.ofNat 40)
    fun n w => sampled_ofNat n w.bit

theorem frameByte_eq_setWidth (f : BitVec 40) (i : Nat) : f.extractLsb' i 8 = (f >>> i).setWidth 8 := by
  ext
  simp

/-- S14 and S15 change SWD only; the sum of the two bytes that decides is taken modulo 256 (R187). -/
theorem decodeFrame_eq (s : State) : decodeFrame s = { s with sw := s.sw.afterFrame s.seq.acc } := by
  have hsum (ck hum temp : Byte) : ck = hum + temp ↔ ck.toNat = (hum.toNat + temp.toNat) % 256 :=
    BitVec.toNat_inj.symm
  simp only [decodeFrame, Swd.afterFrame, hsum, frameByte_eq_setWidth, BitVec.ushiftRight_zero]
  split <;> rfl

end Sys2Proof.Machine
end

section
/-! PROOFS. `SW.READT` and `SW.READH` (41_single_wire.md R183, R190, R191), which differ in the cached value they
return: the run up to the response check, over the handshake, and to the end. -/

namespace Sys2Proof.Machine

/-! ## The operation -/

/-- The last step of a read that returns `value` of the cache. -/
def finishRead (value : Swd → Word) : MicroStep := finish fun s => { s with host.ret0 := value s.sw }

/-- A read that returns `value` of the cache. -/
def readSteps (value : Swd → Word) : List MicroStep :=
  [guardStep fun s => arg0Above s.operands 255] ++ swRead ++ [finishRead value]

/-- What `SW.READT` returns (R190). -/
def Swd.temperature (w : Swd) : Word := w.lastT.setWidth 32 + w.calOff

/-- A frame leaves the offset. -/
theorem Swd.temperature_afterFrame (w : Swd) (f : BitVec 40) :
    (w.afterFrame f).temperature = (w.afterFrame f).lastT.setWidth 32 + w.calOff := by
  have hoffset : (w.afterFrame f).calOff = w.calOff := by
    unfold Swd.afterFrame
    dsimp only
    split <;> rfl
  rw [Swd.temperature, hoffset]

/-- What `SW.READH` returns (R191). -/
def Swd.humidity (w : Swd) : Word := w.lastH.setWidth 32

theorem exec_swReadT (s : State) : exec .swReadT s = .next (s.launch 0x20 fun _ => readSteps Swd.temperature) := rfl
theorem exec_swReadH (s : State) : exec .swReadH s = .next (s.launch 0x21 fun _ => readSteps Swd.humidity) := rfl

/-- S5: a high line passes over the rest of the read. -/
def responseCheck : MicroStep :=
  ask (fun s => .pinRead s.pin) fun a s =>
    if a.level then .go swAnswered.length { s with sw.stat := .noResponse } else .go 0 s

theorem responseCheck_reading (s : State) (opc : Byte) (n : Nat) (acc : BitVec 40) (a : Answer) (rest : List Input)
    (events : List Event) :
    responseCheck (s.reading opc n acc (.answer a :: rest) events) =
      if a.data.getLsbD 0 then
        .go swAnswered.length { s.reading opc n acc rest (events ++ [pinEvent s.pin true]) with
          sw := { s.sw with stat := .noResponse } }
      else .go 0 (s.reading opc n acc rest (events ++ [pinEvent s.pin false])) := by
  rw [responseCheck, ask_answer rfl, level_returns, State.reading_withInputs, State.reading_record,
    Prim.returns_pinRead]
  cases a.data.getLsbD 0 <;> rfl

theorem pin_eq_setWidth (s : State) : s.pin = s.host.arg0.setWidth 8 := by
  rw [State.pin, BitVec.setWidth_eq_extractLsb' (by decide)]

section
variable {s : State} {i : Instr} {opc : Byte} {value : Swd → Word} {n : Nat} {acc : BitVec 40} {l rest : List Input}
  {events : List Event}

/-- S1 to S4. -/
theorem runSteps_readSteps (harg : s.host.arg0.toNat ≤ 255) (hquiet : quiet s.env.inputs = true) :
    runSteps (readSteps value) 0 (s.start opc) =
      runSteps (responseCheck :: (swAnswered ++ [finishRead value])) 0
        (s.reading opc 6 0 s.env.inputs (startEvents s.pin)) := by
  have hlegal : guardStep (fun s => arg0Above s.operands 255) (s.start opc) = .go 0 (s.start opc) :=
    guardStep_none (if_neg (Nat.not_lt.mpr harg))
  refine (runSteps_go (s := s.start opc) hquiet hlegal).trans ?_
  refine (runSteps_go (by exact hquiet) (perform_go _ _ _)).trans ?_
  refine (runSteps_go (by exact hquiet) (delayMsStep_go _ _)).trans ?_
  refine (runSteps_go (by exact hquiet) (perform_go _ _ _)).trans ?_
  refine (runSteps_go (by exact hquiet) (delayUsStep_go _ _)).trans ?_
  congr 1
  simp [State.reading, State.start, State.record, State.nextPhase, State.pin, startEvents, Answer.nothing,
    Config.swResetMs, Config.swReleaseUs]

/-- The end of a read. -/
theorem runSteps_finishRead (sw : Swd) (hquiet : quiet l = true) :
    runSteps [finishRead value] 0 { s.reading opc n acc l events with sw := sw } =
      .ended ({ s.after opc l events with
        sw := sw, host := { s.host with ret0 := value sw } }.done) :=
  runSteps_ended hquiet (finish_ended _ _)

/-- R184: the line is high. -/
theorem runSteps_noResponse (hline : lineThen [true] rest l) (hquiet : quiet rest = true) :
    runSteps (responseCheck :: (swAnswered ++ [finishRead value])) 0 (s.reading opc n acc l events) =
      .ended ({ s.after opc rest (events ++ [pinEvent s.pin true]) with
        sw := { s.sw with stat := .noResponse }
        host := { s.host with ret0 := value { s.sw with stat := .noResponse } } }.done) := by
  obtain ⟨a, ha, rfl⟩ := lineThen_singleton.mp hline
  rw [runSteps_go rfl ((responseCheck_reading ..).trans (if_pos ha)), runSteps_passOver _ _ _ (by simp),
    List.drop_left]
  generalize swAnswered.length = skipped
  exact runSteps_finishRead (n := n + 1 + skipped) { s.sw with stat := .noResponse } hquiet

/-- R185: the line is low. -/
theorem runSteps_response {ms : List MicroStep} (hline : lineThen [false] rest l) :
    runSteps (responseCheck :: ms) 0 (s.reading opc n acc l events) =
      runSteps ms 0 (s.reading opc (n + 1) acc rest (events ++ [pinEvent s.pin false])) := by
  obtain ⟨a, ha, rfl⟩ := lineThen_singleton.mp hline
  rw [runSteps_go rfl ((responseCheck_reading ..).trans (if_neg (ne_true_of_eq_false ha))),
    State.reading_nextPhase]

/-- S6 to S8: the two waits of the handshake. -/
theorem runSteps_swAnswered {ms : List MicroStep} {low high : Nat}
    (hline : lineThen (levelRun false low ++ levelRun true high) rest l) (hquiet : quiet rest = true)
    (hlow : withinBound s.cfg.swPollMax low) (hhigh : withinBound s.cfg.swPollMax high) :
    runSteps (swAnswered ++ ms) 0 (s.reading opc n acc l events) =
      runSteps ((List.range 40).flatMap sampleBit ++ act decodeFrame :: ms) 0
        (s.reading opc (n + 3) 0 rest
          (events ++ (levelRun false low ++ levelRun true high).map (pinEvent s.pin))) := by
  obtain ⟨mid, hfall, hrise⟩ := lineThen_append.mp hline
  have hsteps : swAnswered ++ ms = waitWhile false 0x06 :: waitWhile true 0x07 ::
      act (fun s => { s with seq.acc := 0 }) :: ((List.range 40).flatMap sampleBit ++ act decodeFrame :: ms) := by
    simp [swAnswered, Config.swBits]
  rw [hsteps, runSteps_wait_exit hrise hlow, runSteps_wait_exit hfall hhigh, runSteps_go hquiet (act_go _ _),
    List.append_assoc, ← List.map_append]
  rfl

end

/-! ## From the run to the meaning -/

section
variable {s t : State} {i : Instr} {opc : Byte} {value : Swd → Word} {l rest : List Input} {low high n : Nat}
  {ws : List BitWave} (hidle : s.idle) (harm : exec i s = .next (s.launch opc fun _ => readSteps value))
  (harg : s.host.arg0.toNat ≤ 255)
include hidle harm harg

/-- R184: a read whose sensor does not answer. -/
theorem exec_read_noResponse (hline : lineThen [true] rest s.env.inputs) (hquiet : quiet rest = true) :
    exec i s = .next ({ s.after opc rest (startEvents s.pin ++ [pinEvent s.pin true]) with
      sw := { s.sw with stat := .noResponse }
      host := { s.host with ret0 := value { s.sw with stat := .noResponse } } }.done) :=
  exec_eq_of_runSteps hidle harm ((runSteps_readSteps harg (quiet_of_lineThen hline (by simp))).trans
    (runSteps_noResponse hline hquiet))

/-- A read whose sensor answers is what its steps after the response check leave. -/
theorem exec_read_of_response (hline : lineThen [false] l s.env.inputs)
    (hrun : runSteps (swAnswered ++ [finishRead value]) 0
      (s.reading opc 7 0 l (startEvents s.pin ++ [pinEvent s.pin false])) = .ended t) : exec i s = .next t :=
  exec_eq_of_runSteps hidle harm ((runSteps_readSteps harg (quiet_of_lineThen hline (by simp))).trans
    ((runSteps_response hline).trans hrun))

/-- A read whose handshake stays within the bound is what its bits leave. -/
theorem exec_read_of_handshake (hline : lineThen (handshakeLine low high) l s.env.inputs) (hquiet : quiet l = true)
    (hlow : withinBound s.cfg.swPollMax low) (hhigh : withinBound s.cfg.swPollMax high)
    (hrun : runSteps ((List.range 40).flatMap sampleBit ++ [act decodeFrame, finishRead value]) 0
      (s.reading opc 10 0 l (startEvents s.pin ++ (handshakeLine low high).map (pinEvent s.pin))) = .ended t) :
    exec i s = .next t := by
  have hpieces : handshakeLine low high = [false] ++ (levelRun false low ++ levelRun true high) := by
    simp [handshakeLine, levelRun]
  rw [hpieces] at hline hrun
  obtain ⟨mid, hwaits, hresponse⟩ := lineThen_append.mp hline
  refine exec_read_of_response hidle harm harg hresponse ((runSteps_swAnswered hwaits hquiet hlow hhigh).trans ?_)
  rw [List.append_assoc]
  exact hrun

/-- A whole frame. -/
theorem exec_read_completes (hlength : ws.length = 40)
    (hline : lineThen (handshakeLine low high ++ bitsLine ws) rest s.env.inputs) (hquiet : quiet rest = true)
    (hlow : withinBound s.cfg.swPollMax low) (hhigh : withinBound s.cfg.swPollMax high)
    (hbound : wavesWithin s.cfg.swPollMax ws) :
    exec i s = .next ({ s.after opc rest (startEvents s.pin ++ (handshakeLine low high).map (pinEvent s.pin)
        ++ bitsEvents s.pin ws) with
      sw := s.sw.afterFrame (frameOf ws)
      host := { s.host with ret0 := value (s.sw.afterFrame (frameOf ws)) } }.done) := by
  obtain ⟨l, hbits, hhandshake⟩ := lineThen_append.mp hline
  refine exec_read_of_handshake hidle harm harg hhandshake (quiet_of_lineThen_quiet hbits hquiet) hlow hhigh ?_
  refine (runSteps_sampleBits_all hlength hbits hbound).trans ?_
  rw [runSteps_go hquiet (act_go _ _), decodeFrame_eq, ← sampledAll_zero]
  exact runSteps_finishRead _ hquiet

/-! ## The four waits that can expire -/

/-- S6 expires: the sensor's response does not end. -/
theorem exec_read_timeout_response (hmax : s.cfg.swPollMax = some n) (hn : 1 ≤ n)
    (hline : lineThen (false :: List.replicate n false) rest s.env.inputs) :
    exec i s = .next ({ s.after opc rest
        (startEvents s.pin ++ (false :: List.replicate n false).map (pinEvent s.pin)) with
      sw := { s.sw with stat := .timeout } }.raise (.timeout 0x06)) := by
  obtain ⟨l, hwait, hresponse⟩ := lineThen_append (line := [false]).mp hline
  refine exec_read_of_response hidle harm harg hresponse ((runSteps_wait_expires hwait hmax hn).trans ?_)
  simp

/-- S7 expires: the high that prepares the first bit does not end. -/
theorem exec_read_timeout_preparation (hmax : s.cfg.swPollMax = some n) (hn : 1 ≤ n)
    (hlow : withinBound s.cfg.swPollMax low)
    (hline : lineThen (false :: List.replicate low false ++ true :: List.replicate n true) rest s.env.inputs) :
    exec i s = .next ({ s.after opc rest (startEvents s.pin ++
        (false :: List.replicate low false ++ true :: List.replicate n true).map (pinEvent s.pin)) with
      sw := { s.sw with stat := .timeout } }.raise (.timeout 0x07)) := by
  have hpieces : false :: List.replicate low false ++ true :: List.replicate n true =
      [false] ++ (levelRun false low ++ List.replicate n true) := by simp [levelRun]
  rw [hpieces] at hline ⊢
  obtain ⟨l, hwaits, hresponse⟩ := lineThen_append.mp hline
  obtain ⟨mid, hhigh, hrise⟩ := lineThen_append.mp hwaits
  refine exec_read_of_response hidle harm harg hresponse ((runSteps_wait_exit hrise hlow).trans ?_)
  refine (runSteps_wait_expires hhigh hmax hn).trans ?_
  simp

/-- S9 of bit `ws.length` expires: the line does not rise. -/
theorem exec_read_timeout_rise (hmax : s.cfg.swPollMax = some n) (hn : 1 ≤ n)
    (hlow : withinBound s.cfg.swPollMax low) (hhigh : withinBound s.cfg.swPollMax high)
    (hbound : wavesWithin s.cfg.swPollMax ws) (hlength : ws.length < 40)
    (hline : lineThen (handshakeLine low high ++ bitsLine ws ++ List.replicate n false) rest s.env.inputs) :
    exec i s = .next ({ s.after opc rest (startEvents s.pin ++ ((handshakeLine low high).map (pinEvent s.pin)
        ++ bitsEvents s.pin ws ++ List.replicate n (pinEvent s.pin false))) with
      sw := { s.sw with stat := .timeout } }.raise (.timeout (BitVec.ofNat 8 (0x40 + ws.length)))) := by
  obtain ⟨bit, hwait, hbits⟩ := lineThen_append.mp hline
  obtain ⟨l, hbits, hhandshake⟩ := lineThen_append.mp hbits
  have hquiet : quiet bit = true := quiet_of_lineThen hwait (by simp; omega)
  refine exec_read_of_handshake hidle harm harg hhandshake (quiet_of_lineThen_quiet hbits hquiet) hlow hhigh ?_
  obtain ⟨later, hrun⟩ := runSteps_toBit hlength hbits hbound
  refine hrun.trans ((runSteps_wait_expires hwait hmax hn).trans ?_)
  simp

/-- S12 of bit `ws.length`, whose sample is `b`, expires: the line does not fall. -/
theorem exec_read_timeout_fall {k : Nat} {b : Bool} (hmax : s.cfg.swPollMax = some n) (hn : 1 ≤ n)
    (hlow : withinBound s.cfg.swPollMax low) (hhigh : withinBound s.cfg.swPollMax high)
    (hbound : wavesWithin s.cfg.swPollMax ws) (hlength : ws.length < 40) (hk : withinBound s.cfg.swPollMax k)
    (hline : lineThen (handshakeLine low high ++ bitsLine ws ++ List.replicate k false ++ [true, b] ++
      List.replicate n true) rest s.env.inputs) :
    exec i s = .next ({ s.after opc rest (startEvents s.pin ++ ((handshakeLine low high).map (pinEvent s.pin)
        ++ bitsEvents s.pin ws ++ List.replicate k (pinEvent s.pin false)
        ++ [pinEvent s.pin true, ⟨.delayUs 28, ⟨true, 0⟩⟩, pinEvent s.pin b]
        ++ List.replicate n (pinEvent s.pin true))) with
      sw := { s.sw with stat := .timeout } }.raise (.timeout (BitVec.ofNat 8 (0x80 + ws.length)))) := by
  have hpieces : handshakeLine low high ++ bitsLine ws ++ List.replicate k false ++ [true, b] ++
      List.replicate n true =
      handshakeLine low high ++ (bitsLine ws ++ (levelRun false k ++ ([b] ++ List.replicate n true))) := by
    simp [levelRun]
  rw [hpieces] at hline
  obtain ⟨l, hline, hhandshake⟩ := lineThen_append.mp hline
  obtain ⟨bit, hline, hbits⟩ := lineThen_append.mp hline
  obtain ⟨afterRise, hline, hrise⟩ := lineThen_append.mp hline
  obtain ⟨afterSample, hwait, hsample⟩ := lineThen_append.mp hline
  have hquiet : quiet bit = true := quiet_of_lineThen hrise (by simp [levelRun])
  refine exec_read_of_handshake hidle harm harg hhandshake (quiet_of_lineThen_quiet hbits hquiet) hlow hhigh ?_
  obtain ⟨later, hrun⟩ := runSteps_toBit hlength hbits hbound
  refine hrun.trans ((runSteps_wait_exit hrise hk).trans ?_)
  refine (runSteps_sampleDelay (quiet_of_lineThen hsample (by simp))).trans ((runSteps_sample hsample).trans ?_)
  refine (runSteps_wait_expires hwait hmax hn).trans ?_
  simp [levelRun]

end

/-! ## The statements -/

/-- Settles O24: both getters run the same read, and differ in the value of the cache they return. -/
theorem singleWireRead : Obligations.SingleWireRead := by
  intro s as low high ws rest hidle harg hlength has hin hquiet hlow hhigh hbound
  have hline : lineThen (handshakeLine low high ++ bitsLine ws) rest s.env.inputs := ⟨as, has, hin⟩
  rw [← pin_eq_setWidth, ← Swd.temperature_afterFrame]
  exact ⟨exec_read_completes hidle (exec_swReadT s) harg hlength hline hquiet hlow hhigh hbound,
    exec_read_completes hidle (exec_swReadH s) harg hlength hline hquiet hlow hhigh hbound⟩

/-- Settles O25: the response check of both getters passes over the rest of the read. -/
theorem singleWireNoResponse : Obligations.SingleWireNoResponse := by
  intro s a rest hidle harg hlevel hin hquiet
  have hline : lineThen [true] rest s.env.inputs := lineThen_singleton.mpr ⟨a, hlevel, hin⟩
  rw [← pin_eq_setWidth]
  exact ⟨exec_read_noResponse hidle (exec_swReadT s) harg hline hquiet,
    exec_read_noResponse hidle (exec_swReadH s) harg hline hquiet⟩

/-- Both getters are reads, with a value of the cache each. -/
theorem exec_getter (s : State) {i : Instr} (h : i = .swReadT ∨ i = .swReadH) :
    ∃ value, exec i s = .next (s.launch (opcodeOf i) fun _ => readSteps value) := by
  rcases h with rfl | rfl
  · exact ⟨_, exec_swReadT s⟩
  · exact ⟨_, exec_swReadH s⟩

/-- Settles O26: one case for each wait. -/
theorem singleWireTimeout : Obligations.SingleWireTimeout := by
  intro s as low high k n ws b rest i line events id hidle harg hmax hn hlow hhigh hk hws hlength hi hforms has hin
  have hwithin {run : Nat} (h : run < n) : withinBound s.cfg.swPollMax run := fun m hm => by
    rwa [← Option.some.inj (hmax.symm.trans hm)]
  have hbound : wavesWithin s.cfg.swPollMax ws := fun w hw => ⟨hwithin (hws w hw).1, hwithin (hws w hw).2⟩
  have hline : lineThen line rest s.env.inputs := ⟨as, has, hin⟩
  obtain ⟨value, harm⟩ := exec_getter s hi
  rw [← pin_eq_setWidth] at hforms ⊢
  rcases hforms with ⟨rfl, rfl, rfl⟩ | ⟨rfl, rfl, rfl⟩ | ⟨rfl, rfl, rfl⟩ | ⟨rfl, rfl, rfl⟩
  · exact exec_read_timeout_response hidle harm harg hmax hn hline
  · exact exec_read_timeout_preparation hidle harm harg hmax hn (hwithin hlow) hline
  · exact exec_read_timeout_rise hidle harm harg hmax hn (hwithin hlow) (hwithin hhigh) hbound hlength hline
  · exact exec_read_timeout_fall hidle harm harg hmax hn (hwithin hlow) (hwithin hhigh) hbound hlength
      (hwithin hk) hline

/-- Settles O27: the only step stores the offset. -/
theorem setCalibration : Obligations.SetCalibration := by
  intro s hidle hquiet
  have harm : exec .swSetCal s = .next (s.launch 0x22 fun _ => swSetCalSteps) := rfl
  exact exec_eq_of_runSteps hidle harm (runSteps_ended (s := s.start 0x22) hquiet (finish_ended _ _))

end Sys2Proof.Machine
end

section
/-! PROOFS. Running an operation of FTR (42_display.md R210): it only writes the two-wire bus, so a list of its
accesses is a list of calls, each acknowledged, up to the first that is not. The state in flight is the one of PTC's
operations; a step that changes FTR or the host registers changes the state it stands on. -/

namespace Sys2Proof.Machine

/-! ## The state in flight -/

/-- `s` with operation `opc` in flight at step `n`, the inputs left and the events added. -/
abbrev State.atStep (s : State) (opc : Byte) (n : Nat) (rest : List Input) (events : List Event) : State :=
  s.inFlight opc n s.pt rest events

/-- Nothing taken from the inputs and no event. -/
theorem State.after_nothing (s : State) (opc : Byte) : s.after opc s.env.inputs [] = s.withOp opc := by
  simp [State.after, State.withOp]

section
variable {s s' : State} {opc : Byte} {n : Nat} {l : List Input} {events : List Event} {ms : List MicroStep}

/-- A step that only changes registers moves to the state `s'` with these changes. -/
theorem runSteps_act_atStep {f : State → State} (hquiet : quiet l = true)
    (hf : f (s.atStep opc n l events) = s'.atStep opc n l events) :
    runSteps (act f :: ms) 0 (s.atStep opc n l events) = runSteps ms 0 (s'.atStep opc (n + 1) l events) := by
  rw [runSteps_go hquiet (act_go _ _), hf, State.inFlight_nextPhase]

theorem runSteps_guard_passes {g : State → Option Cause} (hquiet : quiet l = true)
    (hg : g (s.atStep opc n l events) = none) :
    runSteps (guardStep g :: ms) 0 (s.atStep opc n l events) = runSteps ms 0 (s.atStep opc (n + 1) l events) := by
  rw [runSteps_go hquiet (guardStep_none hg), State.inFlight_nextPhase]

theorem runSteps_guard_raises {g : State → Option Cause} {c : Cause} (hquiet : quiet l = true)
    (hg : g (s.atStep opc n l events) = some c) :
    runSteps (guardStep g :: ms) 0 (s.atStep opc n l events) = .ended ((s.after opc l events).raise c) :=
  runSteps_ended hquiet (guardStep_some hg)

theorem runSteps_finish_atStep {f : State → State} (hquiet : quiet l = true)
    (hf : f (s.atStep opc n l events) = s'.atStep opc n l events) :
    runSteps [finish f] 0 (s.atStep opc n l events) = .ended (s'.after opc l events).done := by
  rw [runSteps_ended hquiet (finish_ended _ _), hf]
  rfl

end

/-! ## Calls -/

theorem ackedCalls_append (a b : List Prim) : ackedCalls (a ++ b) = ackedCalls a ++ ackedCalls b := List.map_append

theorem ackedCalls_cons (p : Prim) (l : List Prim) : ackedCalls (p :: l) = ⟨p, ⟨true, 0⟩⟩ :: ackedCalls l := rfl

theorem failingCalls_succ (p : Prim) (l : List Prim) (k : Nat) :
    failingCalls (p :: l) (k + 1) = ⟨p, ⟨true, 0⟩⟩ :: failingCalls l k := rfl

/-- Calls after the failing one are not made. -/
theorem failingCalls_append_left {a : List Prim} (b : List Prim) {k : Nat} (hk : k < a.length) :
    failingCalls (a ++ b) k = failingCalls a k := by
  rw [failingCalls, failingCalls, List.take_append_of_le_length hk.le, List.getElem?_append_left hk]

/-- Calls before the failing part are all acknowledged. -/
theorem failingCalls_append_right (a b : List Prim) (k : Nat) :
    failingCalls (a ++ b) (a.length + k) = ackedCalls a ++ failingCalls b k := by
  rw [failingCalls, failingCalls, List.take_length_add_append, List.getElem?_append_right (Nat.le_add_right ..),
    Nat.add_sub_cancel_left, ackedCalls_append, List.append_assoc]

/-! ## A list of accesses -/

/-- In operations on `s` the step `m` makes the call `c.1`, which returns an acknowledge only, changes nothing, and ends
with `BusError` of `c.2` when the call fails. -/
def State.Writes (s : State) (m : MicroStep) (c : Prim × Byte) : Prop :=
  (∃ prim, m = twAccess prim c.2 (fun _ t => t) ∧ ∀ opc n l events, prim (s.atStep opc n l events) = c.1) ∧
  ∀ a, c.1.returns a = ⟨a.ack, 0⟩

section
variable {s : State} {opc : Byte} {n : Nat} {rest : List Input} {events : List Event} {m : MicroStep}
  {ms later : List MicroStep} {c : Prim × Byte} {cs : List (Prim × Byte)}

theorem runSteps_write_ack (hm : s.Writes m c) (x : BitVec 24) :
    runSteps (m :: later) 0 (s.atStep opc n (.answer ⟨true, x⟩ :: rest) events) =
      runSteps later 0 (s.atStep opc (n + 1) rest (events ++ [⟨c.1, ⟨true, 0⟩⟩])) := by
  obtain ⟨⟨prim, rfl, hprim⟩, hreturns⟩ := hm
  exact runSteps_access_ack s opc n s.pt rest events (by rw [hprim, hreturns]) rfl rfl

theorem runSteps_write_nack (hm : s.Writes m c) (x : BitVec 24) :
    runSteps (m :: later) 0 (s.atStep opc n (.answer ⟨false, x⟩ :: rest) events) =
      .ended ((s.after opc rest (events ++ [⟨c.1, ⟨false, 0⟩⟩])).raise (.busError c.2)) := by
  obtain ⟨⟨prim, rfl, hprim⟩, hreturns⟩ := hm
  exact runSteps_access_nack s opc n s.pt rest events (by rw [hprim, hreturns]) rfl

/-- All calls acknowledged. -/
theorem runSteps_writes (hms : List.Forall₂ s.Writes ms cs) {d : List (BitVec 24)} (hd : d.length = cs.length) :
    runSteps (ms ++ later) 0 (s.atStep opc n (acked d ++ rest) events) =
      runSteps later 0 (s.atStep opc (n + cs.length) rest (events ++ ackedCalls (cs.map Prod.fst))) := by
  induction hms generalizing n d events with
  | nil =>
    obtain rfl := List.length_eq_zero_iff.mp hd
    simp [acked, ackedCalls]
  | @cons m c ms cs hm _ ih =>
    obtain ⟨x, d, rfl⟩ := List.exists_cons_of_length_eq_add_one hd
    refine (runSteps_write_ack hm x).trans ((ih (Nat.succ.inj hd)).trans ?_)
    rw [List.append_assoc, List.map_cons, ackedCalls_cons, List.length_cons, Nat.add_right_comm]
    rfl

/-- Call `d.length` is the first that is not acknowledged; `k` is its `INFO`. -/
theorem runSteps_writes_fail (hms : List.Forall₂ s.Writes ms cs) {d : List (BitVec 24)} {k : Byte}
    (hk : (cs.map Prod.snd)[d.length]? = some k) (x : BitVec 24) :
    runSteps (ms ++ later) 0 (s.atStep opc n (acked d ++ .answer ⟨false, x⟩ :: rest) events) =
      .ended ((s.after opc rest (events ++ failingCalls (cs.map Prod.fst) d.length)).raise (.busError k)) := by
  induction hms generalizing n d events with
  | nil => simp at hk
  | @cons m c ms cs hm _ ih =>
    cases d with
    | nil =>
      obtain rfl : c.2 = k := Option.some.inj hk
      exact runSteps_write_nack hm x
    | cons y d =>
      refine (runSteps_write_ack hm y).trans ((ih hk).trans ?_)
      rw [List.append_assoc, List.map_cons, List.length_cons, failingCalls_succ]
      rfl

end

/-! ## `Flush` -/

/-- A command byte that no step changes. -/
theorem writes_dspCmd {s : State} {byte : State → Byte} (k : Byte)
    (hbyte : ∀ opc n l events, byte (s.atStep opc n l events) = byte s) :
    s.Writes (dspCmd byte k) (.twWrite8 s.dsp.addr s.cfg.dsp.ctrlCmd (byte s), k) :=
  ⟨⟨_, rfl, fun opc n l events => congrArg (Prim.twWrite8 s.dsp.addr s.cfg.dsp.ctrlCmd) (hbyte opc n l events)⟩,
    Prim.returns_twWrite8 _ _ _⟩

/-- The calls of `Flush` that sends `FB[0..FBLEN−1]`. -/
def State.flushCalls (s : State) : List Prim :=
  Machine.flushCalls s.cfg.dsp s.dsp.addr s.dsp.width s.dsp.height s.frameBytes

/-- The seven values of `INFO` of `Flush` (R222). -/
def flushInfos : List Byte := (List.range 7).map fun i => BitVec.ofNat 8 (0x40 + i)

theorem flushInfos_getElem? {i : Nat} (hi : i < 7) : flushInfos[i]? = some (BitVec.ofNat 8 (0x40 + i)) := by
  simp [flushInfos, hi]

theorem State.flushCalls_zip_fst (s : State) : (s.flushCalls.zip flushInfos).map Prod.fst = s.flushCalls := rfl

theorem State.flushCalls_zip_snd (s : State) : (s.flushCalls.zip flushInfos).map Prod.snd = flushInfos := rfl

theorem writes_flushSteps (s : State) : List.Forall₂ s.Writes flushSteps (s.flushCalls.zip flushInfos) := by
  have hblock : s.Writes (twAccess (fun t => .twWriteBlock t.dsp.addr (t.cfg.dsp.ctrlData :: t.frameBytes)) 0x46
      (fun _ t => t)) (.twWriteBlock s.dsp.addr (s.cfg.dsp.ctrlData :: s.frameBytes), 0x46) :=
    ⟨⟨_, rfl, fun _ _ _ _ => rfl⟩, Prim.returns_twWriteBlock _ _⟩
  have hcmd (byte : State → Byte) (k : Byte) := writes_dspCmd (s := s) (byte := byte) k
  exact .cons (hcmd _ 0x40 fun _ _ _ _ => rfl) <| .cons (hcmd _ 0x41 fun _ _ _ _ => rfl) <|
    .cons (hcmd _ 0x42 fun _ _ _ _ => rfl) <| .cons (hcmd _ 0x43 fun _ _ _ _ => rfl) <|
    .cons (hcmd _ 0x44 fun _ _ _ _ => rfl) <| .cons (hcmd _ 0x45 fun _ _ _ _ => rfl) <| .cons hblock .nil

section
variable {s : State} {opc : Byte} {n : Nat} {rest : List Input} {events : List Event} {later : List MicroStep}

theorem runSteps_flush {d : List (BitVec 24)} (hd : d.length = 7) :
    runSteps (flushSteps ++ later) 0 (s.atStep opc n (acked d ++ rest) events) =
      runSteps later 0 (s.atStep opc (n + 7) rest (events ++ ackedCalls s.flushCalls)) := by
  have hrun := runSteps_writes (opc := opc) (n := n) (rest := rest) (events := events) (later := later)
    (writes_flushSteps s) hd
  rwa [State.flushCalls_zip_fst] at hrun

/-- R222: call `d.length` of the flush fails. -/
theorem runSteps_flush_fail {d : List (BitVec 24)} (hd : d.length < 7) (x : BitVec 24) :
    runSteps (flushSteps ++ later) 0 (s.atStep opc n (acked d ++ .answer ⟨false, x⟩ :: rest) events) =
      .ended ((s.after opc rest (events ++ failingCalls s.flushCalls d.length)).raise
        (.busError (BitVec.ofNat 8 (0x40 + d.length)))) := by
  have hinfo : ((s.flushCalls.zip flushInfos).map Prod.snd)[d.length]? = some (BitVec.ofNat 8 (0x40 + d.length)) := by
    rw [State.flushCalls_zip_snd, flushInfos_getElem? hd]
  have hrun := runSteps_writes_fail (opc := opc) (n := n) (rest := rest) (events := events) (later := later)
    (writes_flushSteps s) hinfo x
  rwa [State.flushCalls_zip_fst] at hrun

end

/-! ## The guard of FTR -/

theorem exec_dspClear (s : State) : exec .dspClear s = .next (s.launch 0x31 fun _ => dspClearSteps) := rfl
theorem exec_dspShowStr (s : State) : exec .dspShowStr s = .next (s.launch 0x32 fun _ => dspShowStrSteps) := rfl
theorem exec_dspShowNum (s : State) : exec .dspShowNum s = .next (s.launch 0x33 fun _ => dspShowNumSteps) := rfl

/-- An operation of an initialised FTR is what its steps after the guard leave. -/
theorem exec_eq_of_drawing {s t : State} {i : Instr} {opc : Byte} {ms : List MicroStep} (hidle : s.idle)
    (hinit : s.dsp.init = true) (hquiet : quiet s.env.inputs = true)
    (harm : exec i s = .next (s.launch opc fun _ => needsInit (fun s => s.dsp.init) 3 :: ms))
    (hrun : runSteps ms 0 (s.atStep opc 2 s.env.inputs []) = .ended t) : exec i s = .next t := by
  have hguard : needsInit (fun s => s.dsp.init) 3 (s.start opc) = .go 0 (s.start opc) := needsInit_set hinit
  refine exec_eq_of_runSteps hidle harm ?_
  rw [runSteps_go (s := s.start opc) hquiet hguard, start_eq_inFlight, State.inFlight_nextPhase, hrun]

end Sys2Proof.Machine
end

section
/-! PROOFS. `DSP.CLEAR` (42_display.md R220, R221) and `DSP.INIT` (R214, R215): both end with the flush of a cleared
framebuffer, which `DSP.INIT` sends after the bytes of the configured list. -/

namespace Sys2Proof.Machine

/-! ## The cleared framebuffer -/

/-- `FBLEN` counts all bytes of a geometry of at most 1024 bytes. -/
theorem geometryLength_toNat {w h : Byte} (hmax : w.toNat * h.toNat / 8 ≤ 1024) :
    (geometryLength w h).toNat = w.toNat * h.toNat / 8 := by
  rw [geometryLength, BitVec.toNat_ofNat, Nat.mod_eq_of_lt (by omega)]

section
variable {s : State} (hmax : s.dsp.width.toNat * s.dsp.height.toNat / 8 ≤ 1024)
include hmax

theorem read?_clearFrame (k : Nat) : (clearFrame s).dsp.fb.read? k =
    if k < s.dsp.width.toNat * s.dsp.height.toNat / 8 then some 0 else s.dsp.fb.read? k := by
  rw [← geometryLength_toNat hmax]
  exact Memory.read?_zeroFill _ _ _

theorem frameBytes_clearFrame :
    (clearFrame s).frameBytes = List.replicate (s.dsp.width.toNat * s.dsp.height.toNat / 8) 0 := by
  have hlength : (clearFrame s).dsp.fbLen.toNat = s.dsp.width.toNat * s.dsp.height.toNat / 8 :=
    geometryLength_toNat hmax
  have hzero : ∀ k ∈ List.range (s.dsp.width.toNat * s.dsp.height.toNat / 8), (clearFrame s).fbByte k = 0 :=
    fun k hk => by
      rw [State.fbByte, read?_clearFrame hmax, if_pos (List.mem_range.mp hk), Option.getD_some]
  rw [State.frameBytes, hlength, List.map_congr_left hzero, List.map_const', List.length_range]

/-- The flush of a cleared framebuffer sends zeros. -/
theorem flushCalls_clearFrame : (clearFrame s).flushCalls =
    flushCalls s.cfg.dsp s.dsp.addr s.dsp.width s.dsp.height
      (List.replicate (s.dsp.width.toNat * s.dsp.height.toNat / 8) 0) := by
  rw [State.flushCalls, frameBytes_clearFrame hmax]
  rfl

end

section
variable {s : State} {opc : Byte} {n : Nat} {rest : List Input} {events : List Event} {later : List MicroStep}
  {d : List (BitVec 24)}

/-- R221, all calls acknowledged. -/
theorem runSteps_clearAndFlush (hd : d.length = 7) (hquiet : quiet rest = true) :
    runSteps (clearAndFlush ++ later) 0 (s.atStep opc n (acked d ++ rest) events) =
      runSteps later 0 ((clearFrame s).atStep opc (n + 1 + 7) rest
        (events ++ ackedCalls (clearFrame s).flushCalls)) :=
  (runSteps_act_atStep (quiet_acked_append d hquiet) rfl).trans (runSteps_flush hd)

/-- R221, call `d.length` of the flush the first that fails. -/
theorem runSteps_clearAndFlush_fail (hd : d.length < 7) (x : BitVec 24) :
    runSteps (clearAndFlush ++ later) 0 (s.atStep opc n (acked d ++ .answer ⟨false, x⟩ :: rest) events) =
      .ended (((clearFrame s).after opc rest (events ++ failingCalls (clearFrame s).flushCalls d.length)).raise
        (.busError (BitVec.ofNat 8 (0x40 + d.length)))) :=
  (runSteps_act_atStep (quiet_acked_append d rfl) rfl).trans (runSteps_flush_fail hd x)

end

/-! ## `DSP.CLEAR` -/

/-- Settles O29: the guard, then `ClearAndFlush`. -/
theorem dspClear : Obligations.DspClear := by
  rintro s n calls hidle rfl hmax rfl
  rw [← flushCalls_clearFrame hmax]
  have hread := read?_clearFrame hmax
  refine ⟨fun hinit hquiet => ?_, fun hinit d rest => ⟨fun hd hin hquiet => ⟨_, hread, ?_⟩,
    fun x hd hin => ⟨_, hread, ?_⟩⟩⟩
  · exact exec_eq_raise_of_first hidle (exec_dspClear s) hquiet (needsInit_unset hinit)
  · refine exec_eq_of_drawing hidle hinit (hin ▸ quiet_acked_append d hquiet) (exec_dspClear s) ?_
    rw [hin]
    exact (runSteps_clearAndFlush hd hquiet).trans (runSteps_finish_atStep (s' := clearFrame s) hquiet rfl)
  · refine exec_eq_of_drawing hidle hinit (hin ▸ quiet_acked_append d rfl) (exec_dspClear s) ?_
    rw [hin]
    exact runSteps_clearAndFlush_fail hd x

/-! ## The operands of `DSP.INIT` -/

/-- The legal heights are the multiples of 8 from 8 to 64. -/
theorem contains_heights (h : Nat) :
    [8, 16, 24, 32, 40, 48, 56, 64].contains h = true ↔ ¬ (h < 8 ∨ 64 < h ∨ h % 8 ≠ 0) := by
  simp only [List.contains_iff_mem, List.mem_cons, List.not_mem_nil, or_false]
  omega

theorem displayOk_iff (o : Operands) : o.displayOk = true ↔
    (1 ≤ o.arg0.toNat ∧ o.arg0.toNat ≤ 128) ∧
    ¬ (o.arg1.toNat < 8 ∨ 64 < o.arg1.toNat ∨ o.arg1.toNat % 8 ≠ 0) ∧ o.arg2.toNat ≤ 0x7F := by
  rw [← contains_heights]
  simp only [Operands.displayOk, Bool.and_eq_true, decide_eq_true_eq, and_assoc]

theorem displayOperands_of_ok {o : Operands} (hok : o.displayOk = true) : displayOperands o = none := by
  obtain ⟨hwidth, hheight, haddr⟩ := (displayOk_iff o).mp hok
  rw [displayOperands, if_neg (by omega), if_neg hheight, if_neg (by omega)]

/-- The lowest operand out of range is the one that is raised. -/
theorem displayOperands_of_not_ok {o : Operands} (hok : o.displayOk = false) :
    displayOperands o = some (.illegalOperand
      (if o.arg0.toNat < 1 ∨ 128 < o.arg0.toNat then 0
        else if o.arg1.toNat < 8 ∨ 64 < o.arg1.toNat ∨ o.arg1.toNat % 8 ≠ 0 then 1 else 2)) := by
  have hbad := mt (displayOk_iff o).mpr (Bool.eq_false_iff.mp hok)
  unfold displayOperands
  by_cases hwidth : o.arg0.toNat < 1 ∨ 128 < o.arg0.toNat
  · rw [if_pos hwidth, if_pos hwidth]
  · by_cases hheight : o.arg1.toNat < 8 ∨ 64 < o.arg1.toNat ∨ o.arg1.toNat % 8 ≠ 0
    · rw [if_neg hwidth, if_pos hheight, if_neg hwidth, if_pos hheight]
    · have haddr : 0x7F < o.arg2.toNat := by
        by_contra hlegal
        exact hbad ⟨by omega, hheight, by omega⟩
      rw [if_neg hwidth, if_neg hheight, if_pos haddr, if_neg hwidth, if_neg hheight]

/-- The geometry registers hold legal operands as they are. -/
theorem setGeometry_toNat {s : State} (hok : s.operands.displayOk = true) :
    (setGeometry s).dsp.width.toNat = s.host.arg0.toNat ∧ (setGeometry s).dsp.height.toNat = s.host.arg1.toNat := by
  obtain ⟨hwidth, hheight, -⟩ := (displayOk_iff _).mp hok
  simp only [State.operands] at hwidth hheight
  simp only [setGeometry, BitVec.extractLsb'_toNat, Nat.shiftRight_zero]
  omega

/-- Legal operands make a display of at least one row and at most 1024 bytes. -/
theorem setGeometry_bounds {s : State} (hok : s.operands.displayOk = true) :
    1 ≤ (setGeometry s).dsp.height.toNat ∧
      (setGeometry s).dsp.width.toNat * (setGeometry s).dsp.height.toNat / 8 ≤ 1024 := by
  obtain ⟨⟨-, hwidth⟩, hheight, -⟩ := (displayOk_iff _).mp hok
  simp only [State.operands] at hwidth hheight
  obtain ⟨hw, hh⟩ := setGeometry_toNat hok
  have hproduct : s.host.arg0.toNat * s.host.arg1.toNat ≤ 128 * 64 := Nat.mul_le_mul hwidth (by omega)
  rw [hw, hh]
  omega

/-! ## The configured bytes -/

/-- The calls of the configured list with their values of `INFO`. -/
def State.initWrites (s : State) : List (Prim × Byte) :=
  s.cfg.dsp.initList.map fun e =>
    (.twWrite8 s.dsp.addr s.cfg.dsp.ctrlCmd (InitByte.value e.byte s.dsp.height), e.info)

theorem writes_initListSteps (s : State) : List.Forall₂ s.Writes (initListSteps s.cfg.dsp) s.initWrites := by
  rw [initListSteps, State.initWrites, List.forall₂_map_left_iff, List.forall₂_map_right_iff]
  exact List.forall₂_same.mpr fun e _ => writes_dspCmd e.info fun _ _ _ _ => rfl

theorem initWrites_length (s : State) : s.initWrites.length = s.cfg.dsp.initList.length := List.length_map ..

theorem initWrites_snd (s : State) : s.initWrites.map Prod.snd = s.cfg.dsp.initList.map InitEntry.info := by
  rw [State.initWrites, List.map_map]
  rfl

/-- For a height above 0 the calls are those of R214. -/
theorem initWrites_fst {s : State} (hpos : 1 ≤ s.dsp.height.toNat) :
    s.initWrites.map Prod.fst = initCalls s.cfg.dsp s.dsp.addr s.dsp.height := by
  rw [State.initWrites, initCalls, List.map_map]
  refine List.map_congr_left fun e _ => congrArg (Prim.twWrite8 s.dsp.addr s.cfg.dsp.ctrlCmd) ?_
  cases e.byte with
  | fixed v => rfl
  | heightLessOne =>
    show s.dsp.height - 1 = BitVec.ofNat 8 (s.dsp.height.toNat - 1)
    bv_omega
  | ifHeight32 yes no =>
    have h32 : s.dsp.height = 32 ↔ s.dsp.height.toNat = 32 := BitVec.toNat_inj.symm
    simp only [InitByte.value, h32]

/-! ## `DSP.INIT` -/

/-- The list of initialization bytes is that of the state the command finds. -/
theorem exec_dspInit (s : State) : exec .dspInit s = .next (s.launch 0x30 fun _ => dspInitSteps s.cfg.dsp) := by
  have hcfg : (if s.seq.busy then s else s.start 0x30).cfg = s.cfg := by split <;> rfl
  have hsteps : s.launch 0x30 (fun t => dspInitSteps t.cfg.dsp) = s.launch 0x30 fun _ => dspInitSteps s.cfg.dsp := by
    simp only [State.launch, hcfg]
  exact congrArg Host.Outcome.next hsteps

/-- The calls of `DSP.INIT` on `s`: the configured list, and the flush of a cleared framebuffer. -/
def State.dspInitCalls (s : State) : List Prim :=
  (setGeometry s).initWrites.map Prod.fst ++ (clearFrame (setGeometry s)).flushCalls

/-- For legal operands these are the calls of R214 and R222. -/
theorem dspInitCalls_eq {s : State} (hok : s.operands.displayOk = true) : s.dspInitCalls =
    initCalls s.cfg.dsp (setGeometry s).dsp.addr (setGeometry s).dsp.height ++
      flushCalls s.cfg.dsp (setGeometry s).dsp.addr (setGeometry s).dsp.width (setGeometry s).dsp.height
        (List.replicate ((setGeometry s).dsp.width.toNat * (setGeometry s).dsp.height.toNat / 8) 0) := by
  obtain ⟨hpos, hmax⟩ := setGeometry_bounds hok
  rw [State.dspInitCalls, initWrites_fst hpos, flushCalls_clearFrame hmax]
  rfl

theorem dspInitWrites_length (s : State) :
    ((setGeometry s).initWrites.map Prod.fst).length = s.cfg.dsp.initList.length := by
  rw [List.length_map, initWrites_length]
  rfl

theorem exec_dspInit_illegal {s : State} (hidle : s.idle) (hok : s.operands.displayOk = false)
    (hquiet : quiet s.env.inputs = true) :
    exec .dspInit s = .next ((s.withOp 0x30).raise (.illegalOperand
      (if s.host.arg0.toNat < 1 ∨ 128 < s.host.arg0.toNat then 0
        else if s.host.arg1.toNat < 8 ∨ 64 < s.host.arg1.toNat ∨ s.host.arg1.toNat % 8 ≠ 0 then 1
        else 2))) :=
  exec_eq_raise_of_first hidle (exec_dspInit s) hquiet (guardStep_some (displayOperands_of_not_ok hok))

theorem acked_append (d e : List (BitVec 24)) : acked (d ++ e) = acked d ++ acked e := List.map_append

section
variable {s t : State} {d e : List (BitVec 24)} {rest : List Input} (hidle : s.idle)
  (hok : s.operands.displayOk = true)
include hidle hok

/-- R215 with legal operands is what the steps after the geometry leave. -/
theorem exec_dspInit_of_geometry (hquiet : quiet s.env.inputs = true)
    (hrun : runSteps (initListSteps s.cfg.dsp ++ (clearAndFlush ++ [finish fun s => { s with dsp.init := true }])) 0
      ((setGeometry s).atStep 0x30 3 s.env.inputs []) = .ended t) : exec .dspInit s = .next t := by
  refine exec_eq_of_runSteps hidle (exec_dspInit s) ?_
  rw [start_eq_inFlight, dspInitSteps, List.append_assoc, List.append_assoc]
  exact (runSteps_guard_passes hquiet (displayOperands_of_ok hok)).trans
    ((runSteps_act_atStep hquiet rfl).trans hrun)

/-- R215, a byte of the configured list the first that fails. -/
theorem exec_dspInit_fails_in_list (x : BitVec 24) (hlist : d.length < s.cfg.dsp.initList.length)
    (hin : s.env.inputs = acked d ++ .answer ⟨false, x⟩ :: rest) :
    exec .dspInit s = .next (((setGeometry s).after 0x30 rest (failingCalls s.dspInitCalls d.length)).raise
      (.busError s.cfg.dsp.initList[d.length].info)) := by
  have hinfo : ((setGeometry s).initWrites.map Prod.snd)[d.length]? = some s.cfg.dsp.initList[d.length].info := by
    rw [initWrites_snd, List.getElem?_map]
    exact congrArg _ (List.getElem?_eq_getElem hlist)
  rw [State.dspInitCalls, failingCalls_append_left _ ((dspInitWrites_length s).symm ▸ hlist)]
  refine exec_dspInit_of_geometry hidle hok (hin ▸ quiet_acked_append d rfl) ?_
  rw [hin]
  exact runSteps_writes_fail (writes_initListSteps _) hinfo x

/-- R215, the configured list sent, is what the flush and the end leave. -/
theorem exec_dspInit_of_list (hd : d.length = s.cfg.dsp.initList.length) (hin : s.env.inputs = acked d ++ rest)
    (hquiet : quiet rest = true)
    (hrun : runSteps (clearAndFlush ++ [finish fun s => { s with dsp.init := true }]) 0
      ((setGeometry s).atStep 0x30 (3 + d.length) rest
        (ackedCalls ((setGeometry s).initWrites.map Prod.fst))) = .ended t) : exec .dspInit s = .next t := by
  refine exec_dspInit_of_geometry hidle hok (hin ▸ quiet_acked_append d hquiet) ?_
  rw [hin]
  have hlength : d.length = (setGeometry s).initWrites.length := by rw [hd, initWrites_length]; rfl
  rw [hlength] at hrun
  exact (runSteps_writes (writes_initListSteps _) hlength).trans hrun

/-- R215, all bytes acknowledged. -/
theorem exec_dspInit_completes (hd : d.length = s.cfg.dsp.initList.length) (he : e.length = 7)
    (hin : s.env.inputs = acked (d ++ e) ++ rest) (hquiet : quiet rest = true) :
    exec .dspInit s = .next ({ (clearFrame (setGeometry s)).after 0x30 rest (ackedCalls s.dspInitCalls) with
      dsp := { (clearFrame (setGeometry s)).dsp with init := true } }.done) := by
  rw [acked_append, List.append_assoc] at hin
  refine exec_dspInit_of_list hidle hok hd hin (quiet_acked_append e hquiet) ?_
  rw [State.dspInitCalls, ackedCalls_append]
  exact (runSteps_clearAndFlush he hquiet).trans (runSteps_ended hquiet (finish_ended _ _))

/-- R215, a call of the flush the first that fails. -/
theorem exec_dspInit_fails_in_flush (hd : d.length = s.cfg.dsp.initList.length) (he : e.length < 7) (x : BitVec 24)
    (hin : s.env.inputs = acked (d ++ e) ++ .answer ⟨false, x⟩ :: rest) :
    exec .dspInit s = .next (((clearFrame (setGeometry s)).after 0x30 rest
      (failingCalls s.dspInitCalls (d ++ e).length)).raise (.busError (BitVec.ofNat 8 (0x40 + e.length)))) := by
  rw [acked_append, List.append_assoc] at hin
  refine exec_dspInit_of_list hidle hok hd hin (quiet_acked_append e rfl) ?_
  rw [List.length_append, hd, ← dspInitWrites_length, State.dspInitCalls, failingCalls_append_right]
  exact runSteps_clearAndFlush_fail he x

end

/-- Settles O28: the operands, then the first of the list's bytes and the flush's calls that fails, if there is one. -/
theorem dspInit : Obligations.DspInit := by
  rintro s w h a m n calls hidle rfl hw hh ha rfl rfl
  obtain rfl : w = (setGeometry s).dsp.width := hw
  obtain rfl : h = (setGeometry s).dsp.height := hh
  obtain rfl : a = (setGeometry s).dsp.addr := ha
  refine ⟨fun htable => ?_, exec_dspInit_illegal hidle, fun hok d rest => ?_⟩
  · rw [List.length_append, initCalls, List.length_map, htable]
    rfl
  obtain ⟨-, hmax⟩ := setGeometry_bounds hok
  have hsplit := List.take_append_drop s.cfg.dsp.initList.length d
  have hdrop : (d.drop s.cfg.dsp.initList.length).length = d.length - s.cfg.dsp.initList.length :=
    List.length_drop
  rw [← dspInitCalls_eq hok]
  refine ⟨fun hd hin hquiet => ⟨_, read?_clearFrame hmax, ?_⟩, fun x hd hin => ?_⟩
  · rw [← hsplit] at hin
    exact exec_dspInit_completes hidle hok (List.length_take_of_le (by omega)) (by omega) hin hquiet
  rcases Nat.lt_or_ge d.length s.cfg.dsp.initList.length with hlist | hflush
  · refine ⟨s.dsp.fb, fun k => (if_neg fun hk => by omega).symm, ?_⟩
    rw [List.getElem?_eq_getElem hlist, Option.map_some, Option.getD_some]
    exact exec_dspInit_fails_in_list hidle hok x hlist hin
  · refine ⟨(clearFrame (setGeometry s)).dsp.fb, fun k => ?_, ?_⟩
    · simp only [hflush, true_and]
      exact read?_clearFrame hmax k
    · rw [List.getElem?_eq_none hflush, Option.map_none, Option.getD_none, ← hdrop]
      rw [← hsplit] at hin
      have hfails := exec_dspInit_fails_in_flush hidle hok (List.length_take_of_le hflush) (by omega) x hin
      rwa [hsplit] at hfails

end Sys2Proof.Machine
end

section
/-! PROOFS. `DSP.SHOWSTR` (42_display.md R225 to R228) and `DSP.SHOWNUM` (R230): after its guard the second writes its
text to `BUF` and is the first. -/

namespace Sys2Proof.Machine

/-! ## The glyph check -/

/-- A code has no glyph exactly when it is not drawable. -/
theorem glyphOf_isNone (font : List Glyph) (c : Byte) : (glyphOf font c).isNone = !drawable font [c] := by
  rcases Nat.lt_or_ge c.toNat 32 with hlow | hlow
  · simp [glyphOf, drawable, hlow, Nat.not_le.mpr hlow]
  · have hpast : font.length ≤ c.toNat - 32 ↔ 32 + font.length ≤ c.toNat := by omega
    rw [Bool.eq_iff_iff]
    simp [glyphOf, drawable, hlow, Nat.not_lt.mpr hlow, hpast]

/-- The scan passes over drawable codes. -/
theorem find?_glyphless (font : List Glyph) {before : List Byte} (later : List Byte)
    (h : drawable font before = true) :
    (before ++ later).find? (fun c => (glyphOf font c).isNone) = later.find? fun c => (glyphOf font c).isNone := by
  have hnone : before.find? (fun c => (glyphOf font c).isNone) = none := by
    rw [List.find?_eq_none]
    intro c hc
    have hdrawable : drawable font [c] = true := by
      simpa [drawable] using List.all_eq_true.mp h c hc
    rw [glyphOf_isNone, hdrawable]
    simp
  rw [List.find?_append, hnone, Option.none_or]

theorem textGlyphs_drawable {s : State} (h : drawable s.cfg.dsp.font s.text = true) : s.textGlyphs = none := by
  have hscan := find?_glyphless s.cfg.dsp.font [] h
  rw [List.append_nil] at hscan
  rw [State.textGlyphs, hscan]
  rfl

theorem textGlyphs_bad {s : State} {before later : List Byte} {c : Byte} (htext : s.text = before ++ c :: later)
    (hbefore : drawable s.cfg.dsp.font before = true) (hc : drawable s.cfg.dsp.font [c] = false) :
    s.textGlyphs = some (.unsupportedGlyph c) := by
  have hbad : (glyphOf s.cfg.dsp.font c).isNone = true := by rw [glyphOf_isNone, hc, Bool.not_false]
  have hfound : (c :: later).find? (fun c => (glyphOf s.cfg.dsp.font c).isNone) = some c :=
    List.find?_cons_of_pos hbad
  rw [State.textGlyphs, htext, find?_glyphless _ _ hbefore, hfound, Option.map_some]

/-! ## The steps after the guard -/

section
variable {s : State} {opc : Byte} {n : Nat} {l : List Input}

/-- R226: the text does not fit. -/
theorem runSteps_text_noFit {c : Cause} (hquiet : quiet l = true) (hfits : s.textFits = some c) :
    runSteps textSteps 0 (s.atStep opc n l []) = .ended ((s.after opc l []).raise c) :=
  runSteps_guard_raises hquiet hfits

section
variable (hfits : s.textFits = none)
include hfits

/-- R227: a code of the text has no glyph. -/
theorem runSteps_text_noGlyph {c : Cause} (hquiet : quiet l = true) (hglyphs : s.textGlyphs = some c) :
    runSteps textSteps 0 (s.atStep opc n l []) = .ended ((s.after opc l []).raise c) :=
  (runSteps_guard_passes hquiet hfits).trans (runSteps_guard_raises hquiet hglyphs)

variable {rest : List Input} {d : List (BitVec 24)} (hglyphs : s.textGlyphs = none)
include hglyphs

/-- R228: the text is drawn before the flush. -/
theorem runSteps_text_drawn (hquiet : quiet l = true) :
    runSteps textSteps 0 (s.atStep opc n l []) =
      runSteps (flushSteps ++ [finish id]) 0 ((drawText s).atStep opc (n + 1 + 1 + 1) l []) :=
  (runSteps_guard_passes hquiet hfits).trans
    ((runSteps_guard_passes hquiet hglyphs).trans (runSteps_act_atStep hquiet rfl))

theorem runSteps_text_completes (hd : d.length = 7) (hquiet : quiet rest = true) :
    runSteps textSteps 0 (s.atStep opc n (acked d ++ rest) []) =
      .ended ((drawText s).after opc rest (ackedCalls (drawText s).flushCalls)).done :=
  (runSteps_text_drawn hfits hglyphs (quiet_acked_append d hquiet)).trans
    ((runSteps_flush hd).trans (runSteps_finish_atStep (s' := drawText s) hquiet rfl))

theorem runSteps_text_fails (hd : d.length < 7) (x : BitVec 24) :
    runSteps textSteps 0 (s.atStep opc n (acked d ++ .answer ⟨false, x⟩ :: rest) []) =
      .ended (((drawText s).after opc rest (failingCalls (drawText s).flushCalls d.length)).raise
        (.busError (BitVec.ofNat 8 (0x40 + d.length)))) :=
  (runSteps_text_drawn hfits hglyphs (quiet_acked_append d rfl)).trans (runSteps_flush_fail hd x)

end

end

/-! ## `DSP.SHOWSTR` -/

/-- Settles O30: the guard, the two checks, and the flush of the drawn text. -/
theorem dspShowString : Obligations.DspShowString := by
  rintro s start n hidle rfl rfl
  have hrun {t : State} (hinit : s.dsp.init = true) (hquiet : quiet s.env.inputs = true) :=
    exec_eq_of_drawing (t := t) hidle hinit hquiet (exec_dspShowStr s)
  refine ⟨fun hinit hquiet => ?_, fun hinit hquiet hone hlong => ?_, fun hinit hshort => ?_⟩
  · exact exec_eq_raise_of_first hidle (exec_dspShowStr s) hquiet (needsInit_unset hinit)
  · rw [← State.after_nothing]
    exact hrun hinit hquiet (runSteps_text_noFit hquiet (if_pos ⟨hone, hlong⟩))
  have hfits : s.textFits = none := if_neg fun ⟨hone, hlong⟩ => by unfold State.textStart at hlong; omega
  refine ⟨fun before c later hquiet htext hbefore hc => ?_, fun hdrawable => ?_⟩
  · rw [← State.after_nothing]
    exact hrun hinit hquiet (runSteps_text_noGlyph hfits hquiet (textGlyphs_bad htext hbefore hc))
  have hglyphs := textGlyphs_drawable hdrawable
  refine ⟨(drawText s).dsp.fb, read?_blit _ _ _ _ hdrawable, ?_⟩
  rintro calls d rest rfl
  refine ⟨fun hd hin hquiet => ?_, fun x hd hin => ?_⟩
  · refine hrun hinit (hin ▸ quiet_acked_append d hquiet) ?_
    rw [hin]
    exact runSteps_text_completes hfits hglyphs hd hquiet
  · refine hrun hinit (hin ▸ quiet_acked_append d rfl) ?_
    rw [hin]
    exact runSteps_text_fails hfits hglyphs hd x

/-! ## A memory with given bytes -/

/-- A memory that no longer lists `a`. -/
def Memory.erase (m : Memory) (a : Nat) : Memory := m.filter fun c => c.1 ≠ a

theorem Memory.read?_erase (m : Memory) (a b : Nat) : (m.erase a).read? b = if b = a then none else m.read? b := by
  induction m with
  | nil => simp [Memory.erase]
  | cons c m ih =>
    unfold Memory.erase at ih ⊢
    by_cases hc : c.1 = a
    · rw [List.filter_cons_of_neg (by simpa using hc), ih, Memory.read?_cons, hc]
      split <;> rfl
    · rw [List.filter_cons_of_pos (by simpa using hc), Memory.read?_cons, Memory.read?_cons, ih]
      by_cases hb : b = c.1
      · rw [if_pos hb, if_neg (hb ▸ hc), if_pos hb]
      · rw [if_neg hb, if_neg hb]

/-- Listing a byte, or no longer listing it, changes that byte only. -/
theorem Memory.exists_set (m : Memory) (a : Nat) (v : Option Byte) :
    ∃ m' : Memory, ∀ b, m'.read? b = if b = a then v else m.read? b := by
  cases v with
  | none => exact ⟨m.erase a, m.read?_erase a⟩
  | some v => exact ⟨m.write a v, m.read?_write a v⟩

/-- Bytes that agree with a memory's from some index on are a memory's bytes. -/
theorem Memory.exists_read?_eq (m : Memory) (bound : Nat) (f : Nat → Option Byte)
    (hf : ∀ a, bound ≤ a → f a = m.read? a) : ∃ m' : Memory, ∀ a, m'.read? a = f a := by
  induction bound generalizing m with
  | zero => exact ⟨m, fun a => (hf a (Nat.zero_le a)).symm⟩
  | succ bound ih =>
    obtain ⟨m', hm'⟩ := m.exists_set bound (f bound)
    refine ih m' fun a ha => ?_
    rw [hm']
    split
    · rename_i heq
      rw [heq]
    · exact hf a (by omega)

/-- The bytes of a text on the display are a memory's, also where the text cannot be drawn; where it can, they are the
bytes the machine leaves. -/
theorem exists_read?_afterText (font : List Glyph) (m : Memory) (start : Nat) (text : List Byte) :
    ∃ fb : Memory, (∀ k, fb.read? k = afterText font m start text k) ∧
      (drawable font text = true → fb = blit font m start text) := by
  by_cases hdrawable : drawable font text = true
  · exact ⟨_, read?_blit _ _ _ _ hdrawable, fun _ => rfl⟩
  · obtain ⟨fb, hfb⟩ := m.exists_read?_eq (start + 6 * text.length) (afterText font m start text)
      fun a ha => if_neg (by omega)
    exact ⟨fb, hfb, fun h => absurd h hdrawable⟩

/-! ## `DSP.SHOWNUM` -/

/-- `BUF` with the number written. -/
theorem read?_formatNumber (s : State) (k : Nat) : (formatNumber s).host.buf.read? k =
    if k < (decimalText s.host.arg2.toInt).length then (decimalText s.host.arg2.toInt)[k]?
    else s.host.buf.read? k := by
  have hread := Memory.read?_writeBytes s.host.buf 0 (decimalText s.host.arg2.toInt) k
  simp only [Nat.zero_le, true_and, Nat.zero_add, Nat.sub_zero] at hread
  exact hread

theorem len_formatNumber (s : State) :
    (formatNumber s).host.len.toNat = (decimalText s.host.arg2.toInt).length := by
  have hlength := (decimalText_length s.host.arg2.toInt).2
  exact (BitVec.toNat_ofNat _ _).trans (Nat.mod_eq_of_lt (by omega))

/-- The text that is shown is the number's. -/
theorem text_formatNumber (s : State) : (formatNumber s).text = decimalText s.host.arg2.toInt := by
  apply List.ext_getElem
  · rw [State.text, List.length_map, List.length_range, len_formatNumber]
  · intro k hk hlt
    simp only [State.text, List.getElem_map, List.getElem_range, State.bufByte, read?_formatNumber, if_pos hlt,
      List.getElem?_eq_getElem hlt, Option.getD_some]

/-- An initialised FTR shows the number's text. -/
theorem exec_dspShowNum_of_text {s t : State} (hidle : s.idle) (hinit : s.dsp.init = true)
    (hquiet : quiet s.env.inputs = true)
    (hrun : runSteps textSteps 0 ((formatNumber s).atStep 0x33 3 s.env.inputs []) = .ended t) :
    exec .dspShowNum s = .next t :=
  exec_eq_of_drawing hidle hinit hquiet (exec_dspShowNum s) ((runSteps_act_atStep hquiet rfl).trans hrun)

/-- Settles O31: the guard, then the outcomes of the text steps where `BUF` holds the number. -/
theorem dspShowNumber : Obligations.DspShowNumber := by
  rintro s text start hidle rfl rfl
  refine ⟨fun hinit hquiet => ?_, fun hinit => ?_⟩
  · exact exec_eq_raise_of_first hidle (exec_dspShowNum s) hquiet (needsInit_unset hinit)
  obtain ⟨fb, hfb, hblit⟩ := exists_read?_afterText s.cfg.dsp.font s.dsp.fb
    (s.host.arg0.toNat * s.dsp.width.toNat * 2 + s.host.arg1.toNat * 6) (decimalText s.host.arg2.toInt)
  have hlength := len_formatNumber s
  obtain ⟨hone, -⟩ := decimalText_length s.host.arg2.toInt
  refine ⟨(formatNumber s).host.buf, fb, (formatNumber s).host, read?_formatNumber s, hfb, rfl,
    fun hquiet hlong => ?_, fun hshort => ?_⟩
  · have hfits : (formatNumber s).textFits = some (.illegalOperand 4) :=
      if_pos (by rw [hlength]; exact ⟨hone, hlong⟩)
    rw [← State.after_nothing]
    exact exec_dspShowNum_of_text hidle hinit hquiet (runSteps_text_noFit hquiet hfits)
  have hfits : (formatNumber s).textFits = none :=
    if_neg (by rw [hlength]; exact fun h => absurd hshort (Nat.not_lt.mpr h.2))
  refine ⟨fun before c later hquiet htext hbefore hc => ?_, fun hdrawable => ?_⟩
  · rw [← text_formatNumber] at htext
    rw [← State.after_nothing]
    exact exec_dspShowNum_of_text hidle hinit hquiet
      (runSteps_text_noGlyph hfits hquiet (textGlyphs_bad htext hbefore hc))
  have hglyphs : (formatNumber s).textGlyphs = none :=
    textGlyphs_drawable ((text_formatNumber s).symm ▸ hdrawable)
  have hdrawn : fb = (drawText (formatNumber s)).dsp.fb := by
    rw [hblit hdrawable, ← text_formatNumber]
    rfl
  rintro calls d rest rfl
  subst hdrawn
  refine ⟨fun hd hin hquiet => ?_, fun x hd hin => ?_⟩
  · refine exec_dspShowNum_of_text hidle hinit (hin ▸ quiet_acked_append d hquiet) ?_
    rw [hin]
    exact runSteps_text_completes hfits hglyphs hd hquiet
  · refine exec_dspShowNum_of_text hidle hinit (hin ▸ quiet_acked_append d rfl) ?_
    rw [hin]
    exact runSteps_text_fails hfits hglyphs hd x

end Sys2Proof.Machine
end

section
/-! PROOFS. Running an operation of RFC (43_radio.md R250): it only sends bytes, whose answers never fail, so a list of
its steps is a list of bytes sent. The state in flight is the one of PTC's operations; a step that changes a register
changes the state it stands on. -/

namespace Sys2Proof.Machine

/-! ## Bytes and their answers -/

theorem answers_append (as later : List Answer) : answers (as ++ later) = answers as ++ answers later :=
  List.map_append

theorem quiet_answers_append (as : List Answer) {rest : List Input} (h : quiet rest = true) :
    quiet (answers as ++ rest) = true := by
  cases as with
  | nil => exact h
  | cons a as => rfl

theorem spiEvents_append {bs : List Byte} {as : List Answer} (h : as.length = bs.length) (bs' : List Byte)
    (as' : List Answer) : spiEvents (bs ++ bs') (as ++ as') = spiEvents bs as ++ spiEvents bs' as' :=
  List.zipWith_append h.symm

/-- R110: the first byte of a register write has the high bit set. -/
theorem writeAddress_eq (r : RfReg) : writeAddress r = 0x80 ||| r.setWidth 8 := by
  revert r
  decide

/-- R110: the first byte of a register read is the register. -/
theorem readAddress_eq (r : RfReg) : readAddress r = r.setWidth 8 := by
  revert r
  decide

theorem writePair_eq (r : RfReg) (v : Byte) : writePair r v = [writeAddress r, v] := by
  rw [writeAddress_eq, writePair]

theorem length_writePair (r : RfReg) (v : Byte) : (writePair r v).length = 2 := rfl

/-- A register write for each element of a list. -/
theorem length_flatMap_pairs {α : Type} (l : List α) {pair : α → List Byte} (h : ∀ x, (pair x).length = 2) :
    (l.flatMap pair).length = 2 * l.length := by
  simp [List.length_flatMap, h, Nat.mul_comm]

/-! ## A list of bytes -/

/-- In operations on `s` the steps `ms` send the bytes `bs`, whatever the answers, and leave an operation on `s'`. -/
def State.Sends (s : State) (ms : List MicroStep) (bs : List Byte) (s' : State) : Prop :=
  ∀ (opc : Byte) (n : Nat) (as : List Answer) (rest : List Input) (events : List Event), as.length = bs.length →
    runSteps ms 0 (s.atStep opc n (answers as ++ rest) events) =
      .go 0 (s'.atStep opc (n + bs.length) rest (events ++ spiEvents bs as))

section
variable {s s' s'' : State} {ms ms' later : List MicroStep} {bs bs' : List Byte}

theorem sends_nil : s.Sends [] [] s := by
  intro opc n as rest events has
  obtain rfl := List.length_eq_zero_iff.mp has
  simp [answers, spiEvents]

theorem State.Sends.append (h : s.Sends ms bs s') (h' : s'.Sends ms' bs' s'') :
    s.Sends (ms ++ ms') (bs ++ bs') s'' := by
  intro opc n as rest events has
  rw [List.length_append] at has
  obtain ⟨before, after, rfl, hbefore⟩ : ∃ before after, as = before ++ after ∧ before.length = bs.length :=
    ⟨_, _, (List.take_append_drop bs.length as).symm, List.length_take_of_le (by omega)⟩
  have hafter : after.length = bs'.length := by
    rw [List.length_append] at has
    omega
  rw [runSteps_append, answers_append, List.append_assoc, h opc n before _ events hbefore, List.length_append,
    spiEvents_append hbefore, ← List.append_assoc, ← Nat.add_assoc]
  exact h' opc _ after rest _ hafter

/-- The steps of each element of a list send that element's bytes. -/
theorem sends_flatMap {α : Type} (l : List α) {steps : α → List MicroStep} {bytes : α → List Byte}
    (h : ∀ x, s.Sends (steps x) (bytes x) s) : s.Sends (l.flatMap steps) (l.flatMap bytes) s := by
  induction l with
  | nil => exact sends_nil
  | cons x l ih => exact (h x).append ih

/-- A list that begins with bytes goes on after them. -/
theorem State.Sends.run (h : s.Sends ms bs s') (opc : Byte) (n : Nat) {as : List Answer} (rest : List Input)
    (events : List Event) (has : as.length = bs.length) :
    runSteps (ms ++ later) 0 (s.atStep opc n (answers as ++ rest) events) =
      runSteps later 0 (s'.atStep opc (n + bs.length) rest (events ++ spiEvents bs as)) := by
  rw [runSteps_append, h opc n as rest events has]

/-- One byte, and what its step changes. -/
theorem sends_spiStep {byte : State → Byte} {f : State → State} {b : Byte}
    (hbyte : ∀ opc n l events, byte (s.atStep opc n l events) = b)
    (hf : ∀ opc n l events, f (s.atStep opc n l events) = s'.atStep opc n l events) :
    s.Sends [spiStep byte f] [b] s' := by
  intro opc n as rest events has
  obtain ⟨a, rfl⟩ := List.length_eq_one_iff.mp has
  refine (runSteps_go rfl (spiStep_answer rfl)).trans ?_
  rw [hbyte, State.inFlight_withInputs, State.inFlight_record, hf, State.inFlight_nextPhase, Prim.returns_spiXfer]
  rfl

/-- R110: a register write. -/
theorem sends_rfWrite {reg : State → RfReg} {value : State → Byte} {f : State → State} {r : RfReg} {v : Byte}
    (hreg : ∀ opc n l events, reg (s.atStep opc n l events) = r)
    (hvalue : ∀ opc n l events, value (s.atStep opc n l events) = v)
    (hf : ∀ opc n l events, f (s.atStep opc n l events) = s'.atStep opc n l events) :
    s.Sends (rfWrite reg value f) (writePair r v) s' := by
  rw [writePair_eq]
  have haddress : s.Sends [spiStep (fun t => writeAddress (reg t)) id] [writeAddress r] s :=
    sends_spiStep (fun opc n l events => congrArg writeAddress (hreg opc n l events)) fun _ _ _ _ => rfl
  exact haddress.append (sends_spiStep hvalue hf)

/-- A register write whose register and value the operation does not change. -/
theorem sends_register (s : State) (reg : State → RfReg) (value : State → Byte)
    (hreg : ∀ opc n l events, reg (s.atStep opc n l events) = reg s := by intros; rfl)
    (hvalue : ∀ opc n l events, value (s.atStep opc n l events) = value s := by intros; rfl) :
    s.Sends (rfWrite reg value id) (writePair (reg s) (value s)) s :=
  sends_rfWrite hreg hvalue fun _ _ _ _ => rfl

/-- `s` with the radio in mode `m`. -/
def State.inMode (s : State) (m : RfMode) : State := { s with rf := { s.rf with mode := m } }

/-- R253: `RFMODE` changes with the mode register. -/
theorem sends_setMode (s : State) (m : RfMode) :
    s.Sends (setMode m) (writePair s.cfg.rf.regOpMode (modeValue s.cfg.rf m)) (s.inMode m) :=
  sends_rfWrite (fun _ _ _ _ => rfl) (fun _ _ _ _ => rfl) fun _ _ _ _ => rfl

theorem sends_rfWriteAll (s : State) (l : List (RfReg × Byte)) :
    s.Sends (rfWriteAll l) (l.flatMap fun rv => writePair rv.1 rv.2) s :=
  sends_flatMap l fun rv => sends_register s (fun _ => rv.1) fun _ => rv.2

end

section
variable {s : State} {opc : Byte} {n : Nat} {l : List Input} {events : List Event} {ms : List MicroStep}

/-- A delay of the configuration. -/
theorem runSteps_delay_atStep {duration : State → Nat} (hquiet : quiet l = true) {k : Nat}
    (hk : duration (s.atStep opc n l events) = k) :
    runSteps (delayMsStep duration :: ms) 0 (s.atStep opc n l events) =
      runSteps ms 0 (s.atStep opc (n + 1) l (events ++ [⟨.delayMs k, ⟨true, 0⟩⟩])) := by
  rw [runSteps_go hquiet (delayMsStep_go _ _), hk, State.inFlight_record, State.inFlight_nextPhase]
  rfl

end

/-- The steps of an operation are read off the state its command finds. -/
theorem launch_program (s : State) (opc : Byte) (program : State → List MicroStep) (hidle : s.idle) :
    s.launch opc program = s.launch opc fun _ => program (s.start opc) := by
  rw [launch_idle s opc _ hidle, launch_idle s opc _ hidle]

theorem exec_rfInit {s : State} (hidle : s.idle) :
    exec .rfInit s = .next (s.launch 0x40 fun _ => rfInitSteps s.cfg.rf) :=
  congrArg Host.Outcome.next (launch_program s 0x40 (fun t => rfInitSteps t.cfg.rf) hidle)

theorem exec_rfSend {s : State} (hidle : s.idle) :
    exec .rfSend s = .next (s.launch 0x41 fun _ => rfSendSteps s.text) :=
  congrArg Host.Outcome.next (launch_program s 0x41 (fun t => rfSendSteps t.text) hidle)

end Sys2Proof.Machine
end

section
/-! PROOFS. `RF.INIT` (43_radio.md R255): three parts of its steps send bytes, with a delay after the first and the
second; no step can end the operation before the last. -/

namespace Sys2Proof.Machine

/-- `s` with the frequency word of `ARG0` and the radio asleep, as R255 leaves it before the frequency is sent. -/
def State.tuned (s : State) : State :=
  { s.inMode .sleep with rf := { (s.inMode .sleep).rf with frf := frequencyWord s.host.arg0 } }

/-- R111: the machine's frequency word is the one over the integers. -/
theorem frequencyWord_eq (f : Word) : frequencyWord f = BitVec.ofNat 24 (specFrequency f.toNat) := by
  apply BitVec.eq_of_toNat_eq
  simp [frequencyWord, specFrequency]

/-- The steps of R255 after the frequency word is computed and before the last delay. -/
def configureSteps (c : RfConfig) : List MicroStep :=
  rfWrite (fun s => s.cfg.rf.regFrfMsb) (fun s => s.rf.frf.extractLsb' 16 8) id
  ++ rfWrite (fun s => s.cfg.rf.regFrfMid) (fun s => s.rf.frf.extractLsb' 8 8) id
  ++ rfWrite (fun s => s.cfg.rf.regFrfLsb) (fun s => s.rf.frf.extractLsb' 0 8) id
  ++ rfWriteAll c.modemWrites
  ++ rfWrite (fun s => s.cfg.rf.regPaConfig) (fun s => s.cfg.rf.paValue) id
  ++ rfWriteAll c.preambleWrites
  ++ rfWrite (fun s => s.cfg.rf.regSyncWord) (fun s => s.cfg.rf.syncWord) id
  ++ setMode .standby

theorem rfInitSteps_eq (c : RfConfig) : rfInitSteps c =
    setMode .sleep ++ delayMsStep (fun s => s.cfg.rf.delay1Ms) ::
      act (fun s => { s with rf.frf := frequencyWord s.host.arg0 }) ::
      (configureSteps c ++ [delayMsStep fun s => s.cfg.rf.delay2Ms, finish fun s => { s with rf.init := true }]) := by
  simp [rfInitSteps, configureSteps]

theorem length_rfInitBytes (c : RfConfig) (frf : BitVec 24) :
    (rfInitBytes c frf).length = 2 * (6 + c.modemWrites.length + c.preambleWrites.length) := by
  have hwrites (l : List (RfReg × Byte)) : (l.flatMap fun rv => writePair rv.1 rv.2).length = 2 * l.length :=
    length_flatMap_pairs l fun _ => rfl
  simp only [rfInitBytes, List.length_append, length_writePair, hwrites]
  omega

/-- What these steps send is the bytes of R255, with the frequency word that stands in `FRF`. -/
theorem sends_configureSteps (s : State) :
    s.Sends (configureSteps s.cfg.rf) (rfInitBytes s.cfg.rf s.rf.frf) (s.inMode .standby) := by
  have hmsb := sends_register s (·.cfg.rf.regFrfMsb) (·.rf.frf.extractLsb' 16 8)
  have hmid := sends_register s (·.cfg.rf.regFrfMid) (·.rf.frf.extractLsb' 8 8)
  have hlsb := sends_register s (·.cfg.rf.regFrfLsb) (·.rf.frf.extractLsb' 0 8)
  have hpa := sends_register s (·.cfg.rf.regPaConfig) (·.cfg.rf.paValue)
  have hsync := sends_register s (·.cfg.rf.regSyncWord) (·.cfg.rf.syncWord)
  have hmodem := sends_rfWriteAll s s.cfg.rf.modemWrites
  have hpreamble := sends_rfWriteAll s s.cfg.rf.preambleWrites
  exact ((((((hmsb.append hmid).append hlsb).append hmodem).append hpa).append hpreamble).append hsync).append
    (sends_setMode s .standby)

/-- Settles O34: the answers to the first mode write, the rest of the answers, and the two delays between the parts. -/
theorem radioInit : Obligations.RadioInit := by
  rintro s as frf rest hidle hlength hin hquiet rfl
  rw [← frequencyWord_eq]
  have hfirst : (as.take 2).length = (writePair s.cfg.rf.regOpMode s.cfg.rf.modeSleep).length :=
    List.length_take_of_le (by omega)
  have hsecond : (as.drop 2).length = (rfInitBytes s.cfg.rf (frequencyWord s.host.arg0)).length := by
    rw [List.length_drop, length_rfInitBytes]
    omega
  have hsplit : s.env.inputs = answers (as.take 2) ++ (answers (as.drop 2) ++ rest) := by
    rw [hin, ← List.append_assoc, ← answers_append, List.take_append_drop]
  have hmid : quiet (answers (as.drop 2) ++ rest) = true := quiet_answers_append _ hquiet
  refine exec_eq_of_runSteps hidle (exec_rfInit hidle) ?_
  rw [start_eq_inFlight, hsplit, rfInitSteps_eq]
  refine ((sends_setMode s .sleep).run 0x40 1 _ [] hfirst).trans ?_
  refine (runSteps_delay_atStep hmid rfl).trans ((runSteps_act_atStep (s' := s.tuned) hmid rfl).trans ?_)
  refine ((sends_configureSteps s.tuned).run 0x40 _ rest _ hsecond).trans ?_
  refine (runSteps_delay_atStep hquiet rfl).trans ?_
  exact runSteps_finish_atStep (s' := { s with rf := { s.rf with
    init := true, mode := .standby, frf := frequencyWord s.host.arg0 } }) hquiet rfl

end Sys2Proof.Machine
end

section
/-! PROOFS. `RF.SEND` (43_radio.md R260 to R264): the checks, the bytes before the poll, and the poll whose reads all
return with the bit clear. -/

namespace Sys2Proof.Machine

/-! ## The checks -/

theorem sendOperands_of_ok {o : Operands} (harg : o.arg0.toNat ≤ 255) (hlen : o.len.toNat ≤ 254) :
    sendOperands o = none := by
  rw [sendOperands, if_neg (Nat.not_lt.mpr harg), if_neg (Nat.not_lt.mpr hlen)]

/-- R264: the cause of an `RF.SEND` to a radio that is not initialised. -/
theorem sendOperands_getD (o : Operands) (c : Cause) : (sendOperands o).getD c =
    if 255 < o.arg0.toNat then .illegalOperand 0 else if 254 < o.len.toNat then .illegalOperand 3 else c := by
  unfold sendOperands
  split
  · rfl
  · split <;> rfl

/-- Settles O37: an operand check that finds a cause ends the operation, else the guard does. -/
theorem radioSendTooEarly : Obligations.RadioSendTooEarly := by
  intro s hidle hinit hquiet
  have hcause := sendOperands_getD s.operands (.notInitialized 4)
  refine Eq.trans ?_ (congrArg (fun c => Host.Outcome.next ((s.withOp 0x41).raise c)) hcause)
  cases hoperands : sendOperands s.operands with
  | some c => exact exec_eq_raise_of_first hidle (exec_rfSend hidle) hquiet (guardStep_some hoperands)
  | none =>
    refine exec_eq_of_runSteps hidle (exec_rfSend hidle) ?_
    rw [start_eq_inFlight, ← State.after_nothing]
    exact (runSteps_guard_passes hquiet hoperands).trans
      (runSteps_ended (s := s.atStep 0x41 2 s.env.inputs []) hquiet (needsInit_unset hinit))

/-! ## The bytes before the poll -/

/-- The steps of R260 that send the packet and switch the radio to transmit. -/
def packetSteps (payload : List Byte) : List MicroStep :=
  setMode .standby
  ++ rfWrite (fun s => s.cfg.rf.regFifoTxBase) (fun s => s.host.arg0.extractLsb' 0 8) id
  ++ rfWrite (fun s => s.cfg.rf.regFifoAddrPtr) (fun s => s.host.arg0.extractLsb' 0 8) id
  ++ rfWrite (fun s => s.cfg.rf.regPayloadLen) (fun s => s.host.len + 1) id
  ++ rfWrite (fun s => s.cfg.rf.regFifo) (fun _ => 0x00) id
  ++ payload.flatMap (fun b => rfWrite (fun s => s.cfg.rf.regFifo) (fun _ => b) id)
  ++ setMode .transmit

theorem rfSendSteps_eq (payload : List Byte) : rfSendSteps payload =
    guardStep (fun s => sendOperands s.operands) :: needsInit (fun s => s.rf.init) 4 ::
      (packetSteps payload ++ waitTxDone :: (afterTxDone ++ afterTxTimeout)) := by
  simp [rfSendSteps, packetSteps]

theorem length_sendBytes (c : RfConfig) (address len : Byte) (payload : List Byte) :
    (sendBytes c address len payload).length = 2 * (6 + payload.length) := by
  have hpayload : (payload.flatMap fun b => writePair c.regFifo b).length = 2 * payload.length :=
    length_flatMap_pairs payload fun _ => rfl
  simp only [sendBytes, List.length_append, length_writePair, hpayload]
  omega

theorem text_length (s : State) : s.text.length = s.host.len.toNat := by
  rw [State.text, List.length_map, List.length_range]

theorem sends_packetSteps (s : State) (payload : List Byte) :
    s.Sends (packetSteps payload) (sendBytes s.cfg.rf (s.host.arg0.setWidth 8) s.host.len payload)
      (s.inMode .transmit) := by
  have haddress : s.host.arg0.setWidth 8 = s.host.arg0.extractLsb' 0 8 :=
    BitVec.setWidth_eq_extractLsb' (by decide)
  rw [haddress]
  have hbase := sends_register (s.inMode .standby) (·.cfg.rf.regFifoTxBase) (·.host.arg0.extractLsb' 0 8)
  have hpointer := sends_register (s.inMode .standby) (·.cfg.rf.regFifoAddrPtr) (·.host.arg0.extractLsb' 0 8)
  have hlength := sends_register (s.inMode .standby) (·.cfg.rf.regPayloadLen) (·.host.len + 1)
  have hzero := sends_register (s.inMode .standby) (·.cfg.rf.regFifo) fun _ => 0x00
  have hpayload := sends_flatMap payload fun b =>
    sends_register (s.inMode .standby) (·.cfg.rf.regFifo) fun _ => b
  exact ((((((sends_setMode s .standby).append hbase).append hpointer).append hlength).append hzero).append
    hpayload).append (sends_setMode (s.inMode .standby) .transmit)

/-- An `RF.SEND` that passes the checks is what its steps after the packet leave. -/
theorem exec_rfSend_of_packet {s t : State} {as : List Answer} {l : List Input} (hidle : s.idle)
    (harg : s.host.arg0.toNat ≤ 255) (hlen : s.host.len.toNat ≤ 254) (hinit : s.rf.init = true)
    (has : as.length = 2 * (6 + s.host.len.toNat)) (hin : s.env.inputs = answers as ++ l) (hquiet : quiet l = true)
    (hrun : ∀ n, runSteps (waitTxDone :: (afterTxDone ++ afterTxTimeout)) 0 ((s.inMode .transmit).atStep 0x41 n l
      (spiEvents (sendBytes s.cfg.rf (s.host.arg0.setWidth 8) s.host.len s.text) as)) = .ended t) :
    exec .rfSend s = .next t := by
  have hquietAll : quiet s.env.inputs = true := hin ▸ quiet_answers_append as hquiet
  refine exec_eq_of_runSteps hidle (exec_rfSend hidle) ?_
  rw [start_eq_inFlight, rfSendSteps_eq]
  refine (runSteps_guard_passes hquietAll (sendOperands_of_ok harg hlen)).trans ?_
  refine (runSteps_guard_passes hquietAll (if_pos hinit)).trans ?_
  rw [hin]
  refine ((sends_packetSteps s s.text).run 0x41 _ l [] ?_).trans (hrun _)
  rw [length_sendBytes, text_length, has]

/-! ## The poll -/

/-- `s` in the poll, with the first byte of a read sent or not, `n` failed reads, the inputs left and the events
added. -/
def State.polled (s : State) (mid : Bool) (n : Nat) (rest : List Input) (events : List Event) : State :=
  { s with
    seq := { s.seq with midRead := mid, polls := n }
    env := { s.env with inputs := rest, trace := s.env.trace ++ events } }

theorem State.polled_polled (s : State) (mid mid' : Bool) (m n : Nat) (l rest : List Input)
    (events later : List Event) :
    (s.polled mid m l events).polled mid' n rest later = s.polled mid' n rest (events ++ later) := by
  simp [State.polled]

/-- The end of the poll leaves no trace of it but the events. -/
theorem State.atStep_polled (s : State) (opc : Byte) (n : Nat) (l rest : List Input) (events later : List Event) :
    (s.atStep opc n l events).polled false 0 rest later = s.atStep opc n rest (events ++ later) := by
  simp [State.polled, State.inFlight]

theorem length_pollBytes (c : RfConfig) (k : Nat) : (pollBytes c k).length = 2 * k := by
  simp [pollBytes, Nat.mul_comm]

theorem flagIn_append_left {c : RfConfig} {as : List Answer} (later : List Answer) {n : Nat} (hn : n < as.length) :
    flagIn c (as ++ later) n = flagIn c as n := by
  rw [flagIn, List.getElem?_append_left hn, flagIn]

theorem flagIn_append_right (c : RfConfig) (before as : List Answer) (n : Nat) :
    flagIn c (before ++ as) (before.length + n) = flagIn c as n := by
  rw [flagIn, List.getElem?_append_right (Nat.le_add_right ..), Nat.add_sub_cancel_left, flagIn]

/-- The byte the poll sends next. -/
def pollPrim (s : State) : Prim :=
  if s.seq.midRead then .spiXfer s.cfg.rf.dummy else .spiXfer (readAddress s.cfg.rf.regIrqFlags)

/-- What the poll does with an answer (R262 W4, W5, and W3 of the next round). -/
def pollAnswer (a : Answer) (s : State) : Served :=
  if s.seq.midRead = false then .again { s with seq := { s.seq with midRead := true } }
  else if a.data.setWidth 8 &&& s.cfg.rf.irqTxDone ≠ 0 then
    .leave (.go 0 { s with seq := { s.seq with midRead := false, polls := 0 } })
  else if s.cfg.rf.pollMax = some (s.seq.polls + 1) then
    .leave (.go afterTxDone.length { s with seq := { s.seq with midRead := false, polls := 0 } })
  else .again { s with seq := { s.seq with midRead := false, polls := s.seq.polls + 1 } }

/-- R262 W4: after the first byte of a read comes the second. -/
theorem pollAnswer_address {s : State} (hmid : s.seq.midRead = false) (a : Answer) :
    pollAnswer a s = .again { s with seq := { s.seq with midRead := true } } :=
  if_pos hmid

/-- After a read with the bit clear (R262 W5) the bound decides (W3). -/
theorem pollAnswer_clear {s : State} {a : Answer} (hmid : s.seq.midRead = true)
    (hclear : a.data.setWidth 8 &&& s.cfg.rf.irqTxDone = 0) :
    pollAnswer a s = if s.cfg.rf.pollMax = some (s.seq.polls + 1) then
      .leave (.go afterTxDone.length { s with seq := { s.seq with midRead := false, polls := 0 } })
    else .again { s with seq := { s.seq with midRead := false, polls := s.seq.polls + 1 } } := by
  rw [pollAnswer, if_neg (ne_false_of_eq_true hmid), if_neg (not_not.mpr hclear)]

/-- Short of the bound the poll asks. -/
theorem waitTxDone_asks {s : State} (hbound : s.cfg.rf.pollMax ≠ some s.seq.polls) :
    waitTxDone s = serve pollPrim pollAnswer s.env.inputs s :=
  if_neg fun h => hbound h.2

/-- At the bound there is no further read (R262 W3): SEQ passes over what follows a poll that saw the flag. -/
theorem waitTxDone_atBound {s : State} (hmid : s.seq.midRead = false)
    (hbound : s.cfg.rf.pollMax = some s.seq.polls) :
    waitTxDone s = .go afterTxDone.length (s.polled false 0 s.env.inputs []) := by
  rw [waitTxDone, if_pos ⟨hmid, hbound⟩]
  simp [State.polled, hmid]

/-- The first byte of a read. -/
theorem serve_poll_address {s : State} (hmid : s.seq.midRead = false) (a : Answer) (rest : List Input) :
    serve pollPrim pollAnswer (.answer a :: rest) s =
      serve pollPrim pollAnswer rest
        (s.polled true s.seq.polls rest (spiEvents [s.cfg.rf.regIrqFlags.setWidth 8] [a])) := by
  have hprim : pollPrim s = .spiXfer (s.cfg.rf.regIrqFlags.setWidth 8) := by
    rw [pollPrim, hmid, readAddress_eq]
    rfl
  rw [serve_answer, hprim, Prim.returns_spiXfer, pollAnswer_address (by exact hmid)]
  rfl

/-- The second byte of a read, with the bit clear: one more failed read, and the poll decides anew. -/
theorem serve_poll_clear {s : State} (hmid : s.seq.midRead = true) {a : Answer} (rest : List Input)
    (hclear : a.data.setWidth 8 &&& s.cfg.rf.irqTxDone = 0) :
    serve pollPrim pollAnswer (.answer a :: rest) s =
      waitTxDone (s.polled false (s.seq.polls + 1) rest (spiEvents [s.cfg.rf.dummy] [a])) := by
  have hprim : pollPrim s = .spiXfer s.cfg.rf.dummy := if_pos hmid
  have hbits : (((a.data.setWidth 8).setWidth 24).setWidth 8 : Byte) &&& s.cfg.rf.irqTxDone = 0 := by
    rw [BitVec.setWidth_setWidth_of_le _ (by decide), BitVec.setWidth_eq]
    exact hclear
  rw [serve_answer, hprim, Prim.returns_spiXfer, pollAnswer_clear (by exact hmid) (by exact hbits)]
  by_cases hlast : s.cfg.rf.pollMax = some (s.seq.polls + 1)
  · have hover : waitTxDone (s.polled false (s.seq.polls + 1) rest (spiEvents [s.cfg.rf.dummy] [a])) = _ :=
      waitTxDone_atBound rfl hlast
    rw [if_pos (by exact hlast), hover, State.polled_polled, List.append_nil]
    rfl
  · have hgoes : waitTxDone (s.polled false (s.seq.polls + 1) rest (spiEvents [s.cfg.rf.dummy] [a])) = _ :=
      waitTxDone_asks hlast
    rw [if_neg (by exact hlast), hgoes]
    rfl

/-- A read that returns with the bit clear. -/
theorem waitTxDone_clear {s : State} {a b : Answer} {rest : List Input}
    (hin : s.env.inputs = .answer a :: .answer b :: rest) (hmid : s.seq.midRead = false)
    (hbound : s.cfg.rf.pollMax ≠ some s.seq.polls) (hclear : flagIn s.cfg.rf [a, b] 1 = false) :
    waitTxDone s =
      waitTxDone (s.polled false (s.seq.polls + 1) rest (spiEvents (pollBytes s.cfg.rf 1) [a, b])) := by
  have hflag : b.data.setWidth 8 &&& s.cfg.rf.irqTxDone = 0 := by
    simpa [flagIn] using hclear
  rw [waitTxDone_asks hbound, hin, serve_poll_address hmid]
  refine (serve_poll_clear (s := s.polled true _ _ _) rfl rest hflag).trans ?_
  rw [State.polled_polled]
  rfl

/-- The poll when the reads the bound still allows all return with the bit clear. -/
theorem waitTxDone_expires {s : State} {as : List Answer} {k : Nat} {rest : List Input}
    (hin : s.env.inputs = answers as ++ rest) (hmid : s.seq.midRead = false) (hlength : as.length = 2 * k)
    (hbound : s.cfg.rf.pollMax = some (s.seq.polls + k))
    (hclear : ∀ j < k, flagIn s.cfg.rf as (2 * j + 1) = false) :
    waitTxDone s =
      .go afterTxDone.length (s.polled false 0 rest (spiEvents (pollBytes s.cfg.rf k) as)) := by
  induction k generalizing s as with
  | zero =>
    obtain rfl := List.length_eq_zero_iff.mp hlength
    obtain rfl : s.env.inputs = rest := hin
    exact waitTxDone_atBound hmid hbound
  | succ k ih =>
    obtain ⟨a, later, rfl⟩ := List.exists_cons_of_length_eq_add_one hlength
    obtain ⟨b, later, rfl⟩ := List.exists_cons_of_length_eq_add_one (Nat.succ.inj hlength)
    have hshort : s.cfg.rf.pollMax ≠ some s.seq.polls := by
      rw [hbound]
      simp
    have hnext : s.cfg.rf.pollMax = some (s.seq.polls + 1 + k) := by
      rw [hbound, Nat.add_assoc, Nat.add_comm 1]
    refine (waitTxDone_clear (rest := answers later ++ rest) hin hmid hshort (hclear 0 (Nat.succ_pos k))).trans ?_
    refine (ih (s := s.polled false _ _ _) rfl rfl (Nat.succ.inj (Nat.succ.inj hlength)) hnext
      fun j hj => hclear (j + 1) (Nat.succ_lt_succ hj)).trans ?_
    rw [State.polled_polled]
    rfl

/-- R263: after a poll that expires SEQ writes Standby and raises. -/
theorem runSteps_poll_expires {s : State} {opc : Byte} {n b : Nat} {polls close : List Answer} {rest : List Input}
    {events : List Event} (hpolls : polls.length = 2 * b) (hclose : close.length = 2)
    (hmax : s.cfg.rf.pollMax = some b) (hclear : ∀ k < b, flagIn s.cfg.rf polls (2 * k + 1) = false)
    (hquiet : quiet rest = true) :
    runSteps (waitTxDone :: (afterTxDone ++ afterTxTimeout)) 0
        (s.atStep opc n (answers polls ++ (answers close ++ rest)) events) =
      .ended (((s.inMode .standby).after opc rest (events ++ spiEvents (pollBytes s.cfg.rf b) polls ++
        spiEvents (writePair s.cfg.rf.regOpMode s.cfg.rf.modeStdby) close)).raise (.timeout 0xC0)) := by
  have hexpires := waitTxDone_expires (s := s.atStep opc n (answers polls ++ (answers close ++ rest)) events) rfl rfl
    hpolls (hmax.trans (congrArg some (Nat.zero_add b).symm)) hclear
  rw [runSteps_go (quiet_answers_append polls (quiet_answers_append close hquiet)) hexpires, State.atStep_polled,
    State.inFlight_nextPhase, runSteps_passOver _ _ _ (by simp), List.drop_left]
  generalize afterTxDone.length = skipped
  refine ((sends_setMode s .standby).run opc (n + 1 + skipped) rest _ hclose).trans ?_
  exact runSteps_guard_raises hquiet rfl

/-! ## The statement of R263 -/

/-- Answers in three parts. -/
theorem exists_split_answers {as : List Answer} {i j k : Nat} (h : as.length = i + j + k) :
    ∃ x y z, as = x ++ y ++ z ∧ x.length = i ∧ y.length = j ∧ z.length = k :=
  ⟨as.take i, (as.drop i).take j, as.drop (i + j), by rw [← List.take_add, List.take_append_drop],
    List.length_take_of_le (by omega), List.length_take_of_le (by rw [List.length_drop]; omega),
    by rw [List.length_drop]; omega⟩

/-- Settles O36: the bytes before the poll, the poll, and the Standby write of its exit. -/
theorem radioSendTimeout : Obligations.RadioSendTimeout := by
  intro s as b rest hidle harg hlen hinit hmax hlength hclear hin hquiet
  obtain ⟨sent, polls, close, rfl, hsent, hpolls, hclose⟩ := exists_split_answers (as := as)
    (i := 2 * (6 + s.host.len.toNat)) (j := 2 * b) (k := 2) (by omega)
  have hbits (k : Nat) (hk : k < b) : flagIn s.cfg.rf polls (2 * k + 1) = false := by
    have hplace : 2 * (6 + s.host.len.toNat + k) + 1 = sent.length + (2 * k + 1) := by omega
    rw [← hclear k hk, hplace, List.append_assoc, flagIn_append_right, flagIn_append_left close (by omega)]
  have hbytes : sent.length = (sendBytes s.cfg.rf (s.host.arg0.setWidth 8) s.host.len s.text).length := by
    rw [length_sendBytes, text_length, hsent]
  have hreads : polls.length = (pollBytes s.cfg.rf b).length := by
    rw [length_pollBytes, hpolls]
  rw [answers_append, answers_append, List.append_assoc, List.append_assoc] at hin
  rw [spiEvents_append (by rw [List.length_append, List.length_append, hbytes, hreads]), spiEvents_append hbytes]
  exact exec_rfSend_of_packet hidle harg hlen hinit hsent hin
    (quiet_answers_append polls (quiet_answers_append close hquiet))
    fun n => runSteps_poll_expires hpolls hclose hmax hbits hquiet

end Sys2Proof.Machine
end

section
/-! PROOFS. The receive event and the interrupt output (60_exceptions.md R300). `RxEvent` acts alike busy and idle, and
`RXIE` alone decides whether it becomes pending or is lost. -/

namespace Sys2Proof.Machine

/-! ## The event and the level -/

/-- The packet number is discarded (43_radio.md R268). -/
@[simp] theorem external_rxEvent (s : State) (num : Word) : s.external (.rxEvent num) = s.rxEvent := rfl

/-- Enabled, the event is pending. -/
theorem rxEvent_of_enabled {s : State} (h : s.rf.rxie = true) :
    s.rxEvent = { s with rf := { s.rf with rxpend := true } } :=
  if_pos h

/-- Not enabled, the event is lost. -/
theorem rxEvent_of_disabled {s : State} (h : s.rf.rxie = false) : s.rxEvent = s :=
  if_neg (by simp [h])

/-- `irq_rx` is high exactly while the event is enabled and pending. -/
theorem irqRx_iff (s : State) : s.irqRx = true ↔ s.rf.rxie = true ∧ s.rf.rxpend = true :=
  Bool.and_eq_true_iff

/-! ## The statement -/

/-- Settles O13: the event enabled and not, and the level of the interrupt output. -/
theorem receiveEvent : Obligations.ReceiveEvent := by
  intro s num
  rw [external_rxEvent]
  exact ⟨rxEvent_of_enabled, rxEvent_of_disabled, irqRx_iff s⟩

end Sys2Proof.Machine
end

section
/-! PROOFS. The reset values (70_reset_and_hazards.md R320). Three of them are families: the coefficients, the bytes of
the two memories, which list nothing, and the window of `FB`, which reads 0 because `FBLEN` is 0. -/

namespace Sys2Proof.Machine

/-! ## The families -/

/-- All eleven coefficients reset to 0 (10_state.md R27). -/
theorem CalSet.get_zero (k : Nat) : CalSet.zero.get k = 0 := by
  unfold CalSet.get
  split <;> rfl

/-- The window of `FB` reads 0 from `FBLEN` up (10_state.md R46). -/
theorem hostValue_frame_beyond (s : State) {k : Nat} (hk : k < 1024) (hlen : s.dsp.fbLen.toNat ≤ k) :
    s.hostValue (BitVec.ofNat 11 (0x400 + k)) = 0 := by
  have hindex : (BitVec.ofNat 11 (0x400 + k)).toNat = 0x400 + k := by
    rw [BitVec.toNat_ofNat, Nat.mod_eq_of_lt (by omega)]
  have hwindow : 0x400 ≤ 0x400 + k := Nat.le_add_right ..
  have hbeyond : ¬ 0x400 + k - 0x400 < s.dsp.fbLen.toNat := by omega
  simp only [State.hostValue, hindex, if_pos hwindow, if_neg hbeyond]

/-- No byte of `FB` is below its length after reset. -/
theorem hostValue_frame_reset (k : Nat) (hk : k < 1024) :
    State.reset.hostValue (BitVec.ofNat 11 (0x400 + k)) = 0 :=
  hostValue_frame_beyond State.reset hk (Nat.zero_le k)

/-! ## The statement -/

/-- Settles O15: the table unit by unit (SEQ, host registers, PTC, SWD, FTR, RFC). The single registers are the fields
of `State.reset`. -/
theorem resetValues : Obligations.ResetValues :=
  ⟨rfl, rfl, rfl, rfl, rfl,
    rfl, rfl, rfl, rfl, rfl, rfl, Memory.read?_nil,
    rfl, rfl, CalSet.get_zero, rfl, rfl, rfl,
    rfl, rfl, rfl, rfl, rfl, rfl,
    rfl, rfl, rfl, rfl, rfl, Memory.read?_nil, hostValue_frame_reset,
    rfl, rfl, rfl, rfl, rfl, rfl⟩

end Sys2Proof.Machine
end

section
/-! PROOFS. The command word and the step (30_encoding.md R100, R101, R104, R105; 60_exceptions.md R298, R307): decode
and encode are each other's inverse, and which case of `step` the next input of an ESPB falls under. -/

namespace Sys2Proof

/-! ## Decode and encode -/

/-- The decoder reads every operation back from its command word. -/
theorem decode_encode (i : Instr) : decode (encode i) = .ok i := by
  cases i
  · exact Laws.RoundTrip.ptInit.2.2
  · exact Laws.RoundTrip.ptReadT.2.2
  · exact Laws.RoundTrip.ptReadP.2.2
  · exact Laws.RoundTrip.swReadT.2.2
  · exact Laws.RoundTrip.swReadH.2.2
  · exact Laws.RoundTrip.swSetCal.2.2
  · exact Laws.RoundTrip.dspInit.2.2
  · exact Laws.RoundTrip.dspClear.2.2
  · exact Laws.RoundTrip.dspShowStr.2.2
  · exact Laws.RoundTrip.dspShowNum.2.2
  · exact Laws.RoundTrip.rfInit.2.2
  · exact Laws.RoundTrip.rfSend.2.2
  · exact Laws.RoundTrip.rfOnRecv.2.2

/-- The table read by operation agrees with the table read by opcode. -/
theorem instrOfOpcode_opcodeOf (i : Instr) : instrOfOpcode (opcodeOf i) = some i := by
  cases i <;> rfl

theorem instrOfOpcode_eq_some_iff {opc : Byte} {i : Instr} : instrOfOpcode opc = some i ↔ opc = opcodeOf i :=
  ⟨eq_opcodeOf_of_instrOfOpcode, fun h => h ▸ instrOfOpcode_opcodeOf i⟩

/-- Settles O1: a word that decodes is made up of its two fields, and every command word is read back. -/
theorem decodeIsExact : Obligations.DecodeIsExact := by
  intro w i
  refine ⟨eq_encode_of_decode, ?_⟩
  rintro rfl
  exact decode_encode i

/-- Settles O2: the thirteen words are the command words; of the others the two fields decide. -/
theorem decodeSampleWords : Obligations.DecodeSampleWords :=
  ⟨decode_encode .ptInit, decode_encode .ptReadT, decode_encode .ptReadP, decode_encode .swReadT,
    decode_encode .swReadH, decode_encode .swSetCal, decode_encode .dspInit, decode_encode .dspClear,
    decode_encode .dspShowStr, decode_encode .dspShowNum, decode_encode .rfInit, decode_encode .rfSend,
    decode_encode .rfOnRecv, rfl, rfl, rfl, rfl, rfl, rfl, rfl⟩

end Sys2Proof

namespace Sys2Proof.Machine

/-! ## The cases of a step -/

theorem command_of_decode_ok {w : Word} {i : Instr} (s : State) (h : decode w = .ok i) : command w s = exec i s := by
  rw [command, h]

theorem step_of_fetch_handled {s t : State} (hidle : s.idle) (hrst : s.env.rst = false)
    (h : s.fetch = .handled t) : step s = .next t := by
  simp [step, hrst, hidle, h]

theorem step_of_fetch_nothing {s : State} (hidle : s.idle) (hrst : s.env.rst = false)
    (h : s.fetch = .nothing) : step s = .next s := by
  simp [step, hrst, hidle, h]

theorem step_of_rst {s : State} (hrst : s.env.rst = true) : step s = .next s.held := by
  simp [step, hrst]

theorem step_of_busy {s : State} {i : Instr} (hrst : s.env.rst = false) (hbusy : s.seq.busy = true)
    (hop : instrOfOpcode s.seq.op = some i) : step s = exec i s := by
  simp [step, hrst, hbusy, resume, hop]

theorem fetch_nothing {s : State} (h : s.env.inputs = []) : s.fetch = .nothing := by
  simp [State.fetch, h]

/-- An answer nobody waits for and a `pass` are taken without effect. -/
theorem fetch_dropped {s : State} {a : Answer} {rest : List Input}
    (h : s.env.inputs = .answer a :: rest ∨ s.env.inputs = .pass :: rest) :
    s.fetch = .handled (s.withInputs rest) := by
  rcases h with h | h <;> simp [State.fetch, h]

/-- An outside action that is no command write is acted on. -/
theorem fetch_external {s : State} {e : External} {rest : List Input} (hwrite : ∀ w, e ≠ .hostWrite 0x000 w)
    (hwriteRx : ∀ w n, e ≠ .hostWriteRx 0x000 w n)
    (h : s.env.inputs = .ext e :: rest ∨ s.env.inputs = .early e :: rest) :
    s.fetch = .handled ((s.withInputs rest).external e) := by
  cases e with
  | hostWrite i v =>
    have hi : i ≠ cmdIndex := by
      rintro rfl
      exact hwrite v rfl
    rcases h with h | h <;> simp [State.fetch, h, hi]
  | hostWriteRx i v n =>
    have hi : i ≠ cmdIndex := by
      rintro rfl
      exact hwriteRx v n rfl
    rcases h with h | h <;> simp [State.fetch, h, hi]
  | hostRead i => rcases h with h | h <;> simp [State.fetch, h]
  | rxEvent n => rcases h with h | h <;> simp [State.fetch, h]
  | rst b => rcases h with h | h <;> simp [State.fetch, h]

/-! ## The statements -/

/-- `withFetchWord` of the whole word is `awaitCommand`. -/
theorem withFetchWord_whole (s : State) (w : Word) : s.withFetchWord 32 w.toNat = s.awaitCommand w := by
  rw [State.withFetchWord, Nat.mod_eq_of_lt w.isLt, BitVec.ofNat_toNat, BitVec.setWidth_eq]

/-- Settles O4: each form of the write is fetched as the command, and the command is the decoded operation. -/
theorem stepRunsCommand : Obligations.StepRunsCommand := by
  intro s w i hdecode
  refine ⟨fun hidle hrst rest num => ?_, ?_⟩
  · have hrun {t : State} (h : s.fetch = .command w t) : step s = exec i t := by
      rw [step_of_fetch_command hidle hrst h, command_of_decode_ok t hdecode]
    exact ⟨fun h => hrun (fetch_hostWrite_cmd s w rest (.inl h)), fun h => hrun (fetch_hostWrite_cmd s w rest (.inr h)),
      fun h => hrun (fetch_hostWriteRx_cmd s w num rest (.inl h)),
      fun h => hrun (fetch_hostWriteRx_cmd s w num rest (.inr h))⟩
  · have hfetch := fetch_hostWrite_cmd (s.awaitCommand w) w s.env.inputs (.inl rfl)
    rw [withFetchWord_whole, step_of_fetch_command rfl rfl hfetch, command_of_decode_ok _ hdecode]
    rfl

/-- Settles O5: busy the operation in flight, idle the next input. -/
theorem stepOtherwise : Obligations.StepOtherwise := by
  intro s hrst
  refine ⟨fun hbusy i hop => step_of_busy hrst hbusy hop, fun hidle => ⟨fun h => ?_, fun a rest h => ?_,
    fun e rest hwrite hwriteRx h => ?_⟩⟩
  · exact step_of_fetch_nothing hidle hrst (fetch_nothing h)
  · exact step_of_fetch_handled hidle hrst (fetch_dropped h)
  · exact step_of_fetch_handled hidle hrst (fetch_external hwrite hwriteRx h)

theorem exec_next (i : Instr) (s : State) : ∃ t, exec i s = .next t := by
  cases i <;> exact ⟨_, rfl⟩

theorem command_next (w : Word) (s : State) : ∃ t, command w s = .next t := by
  unfold command
  split
  · exact exec_next _ s
  · exact ⟨_, rfl⟩

theorem resume_next (s : State) : ∃ t, resume s = .next t := by
  unfold resume
  split
  · exact exec_next _ s
  · exact ⟨_, rfl⟩

/-- Settles O6: every operation, the illegal command and every outside action answer a next state. -/
theorem stepNeverStops : Obligations.StepNeverStops := by
  intro s
  unfold step
  split
  · exact ⟨_, rfl⟩
  · split
    · exact resume_next s
    · split
      · exact ⟨_, rfl⟩
      · exact command_next _ _
      · exact ⟨_, rfl⟩

/-- Settles O7: the codes and infos of the causes, and the record both ends write. -/
theorem doneAndRaise : Obligations.DoneAndRaise := by
  intro s c k
  exact ⟨rfl, rfl, rfl, rfl, rfl, rfl, rfl, rfl, rfl, rfl, rfl, rfl, rfl, rfl, fun w => rfl, rfl, rfl⟩

end Sys2Proof.Machine
end

section
/-! PROOFS. The host port (10_state.md R42, R46, R47; 20_memory.md R62 to R64; 60_exceptions.md R301): the window at
every index, reads, writes while idle, and the acknowledging write. -/

namespace Sys2Proof.Machine

/-! ## The window -/

theorem toInt_signExtend_16 (v : BitVec 16) : (v.signExtend 32).toInt = v.toInt :=
  BitVec.toInt_signExtend_of_le (by decide)

/-- An unsigned register of at most 32 bits is shown as its number. -/
theorem toNat_setWidth_32 {n : Nat} (v : BitVec n) (h : n ≤ 32) : (v.setWidth 32).toNat = v.toNat :=
  BitVec.toNat_setWidth_of_le h

/-- `FRAME` is shown in two words. -/
theorem frame_two_words (f : BitVec 40) :
    (f.extractLsb' 0 32).toNat + 2 ^ 32 * ((f.extractLsb' 32 8).setWidth 32).toNat = f.toNat := by
  have hf := f.isLt
  rw [toNat_setWidth_32 _ (by decide), BitVec.extractLsb'_toNat, BitVec.extractLsb'_toNat, Nat.shiftRight_zero,
    Nat.shiftRight_eq_div_pow]
  omega

theorem toNat_ofNat_index {n : Nat} (h : n < 2048) : (BitVec.ofNat 11 n).toNat = n := by
  rw [BitVec.toNat_ofNat, Nat.mod_eq_of_lt h]

/-- The window of `BUF`. -/
theorem hostValue_buf (s : State) {k : Nat} (hk : k < 256) :
    s.hostValue (BitVec.ofNat 11 (0x100 + k)) = (s.bufByte k).setWidth 32 := by
  have hframe : ¬ 0x400 ≤ 0x100 + k := by omega
  have hbuf : 0x100 ≤ 0x100 + k ∧ 0x100 + k < 0x200 := by omega
  simp only [State.hostValue, toNat_ofNat_index (show 0x100 + k < 2048 by omega), if_neg hframe, if_pos hbuf,
    Nat.add_sub_cancel_left]

/-- The window of `FB`. -/
theorem hostValue_frame (s : State) {k : Nat} (hk : k < 1024) :
    s.hostValue (BitVec.ofNat 11 (0x400 + k)) = if k < s.dsp.fbLen.toNat then (s.fbByte k).setWidth 32 else 0 := by
  have hframe : 0x400 ≤ 0x400 + k := by omega
  simp only [State.hostValue, toNat_ofNat_index (show 0x400 + k < 2048 by omega), if_pos hframe,
    Nat.add_sub_cancel_left]

/-- `CMD` and the reserved indices of R42. -/
def reservedIndex (n : Nat) : Prop :=
  n = 0x000 ∨ (0x009 ≤ n ∧ n ≤ 0x00F) ∨ n = 0x01F ∨ (0x025 ≤ n ∧ n ≤ 0x027) ∨ (0x02C ≤ n ∧ n ≤ 0x02F) ∨
    (0x032 ≤ n ∧ n ≤ 0x0FF) ∨ (0x200 ≤ n ∧ n ≤ 0x3FF)

/-- No register stands at a reserved index. -/
theorem hostValue_reserved (s : State) {n : Nat} (h : reservedIndex n) : s.hostValue (BitVec.ofNat 11 n) = 0 := by
  unfold reservedIndex at h
  have hframe : ¬ 0x400 ≤ n := by omega
  have hbuf : ¬ (0x100 ≤ n ∧ n < 0x200) := by omega
  have hcal : ¬ (0x010 ≤ n ∧ n ≤ 0x01A) := by omega
  simp only [State.hostValue, toNat_ofNat_index (show n < 2048 by omega), if_neg hframe, if_neg hbuf, if_neg hcal]
  split
  on_goal -1 => rfl
  all_goals omega

/-- Settles O8: single registers by their extension, then the two byte windows and the rest. -/
theorem hostWindow : Obligations.HostWindow := by
  intro s
  have hunsigned {n : Nat} (v : BitVec n) (hn : n ≤ 32 := by decide) := toNat_setWidth_32 v hn
  refine ⟨toInt_signExtend_16 _, toInt_signExtend_16 _, toInt_signExtend_16 _, hunsigned s.pt.cal.ac4,
    hunsigned s.pt.cal.ac5, hunsigned s.pt.cal.ac6, toInt_signExtend_16 _, toInt_signExtend_16 _,
    toInt_signExtend_16 _, toInt_signExtend_16 _, toInt_signExtend_16 _, hunsigned s.seq.cause, rfl, rfl,
    rfl, rfl, rfl, hunsigned s.host.len, hunsigned s.pt.ut, hunsigned s.pt.up,
    rfl, hunsigned s.pt.addr, frame_two_words _, hunsigned s.sw.lastT,
    hunsigned s.sw.lastH, rfl, hunsigned s.dsp.width, hunsigned s.dsp.height,
    hunsigned s.dsp.addr, hunsigned s.dsp.fbLen, hunsigned s.rf.frf, hunsigned s.rf.mode.code,
    rfl, rfl, rfl, rfl, fun k hk => ?_, fun k hk => ?_, fun n hn => ?_⟩
  · rw [hostValue_buf s hk, toNat_setWidth_32 _ (by decide)]
  · rw [hostValue_frame s hk]
    split
    · exact toNat_setWidth_32 _ (by decide)
    · rfl
  · exact hostValue_reserved s hn

/-! ## Reads -/

/-- While idle, and at `STATUS`, a read is exact (R63). -/
theorem hostRead_exact {s : State} {i : HostIndex} (h : s.idle ∨ i = statusIndex) :
    s.hostRead i = { s with env := { s.env with hostReads := s.env.hostReads ++ [⟨i, s.hostValue i⟩] } } := by
  refine if_neg fun ⟨hbusy, hi⟩ => ?_
  rcases h with hidle | hstatus
  · exact Bool.noConfusion (hidle.symm.trans hbusy)
  · exact hi hstatus

/-- Settles O10: the two cases of a read. -/
theorem hostReads : Obligations.HostReads := by
  intro s i
  exact ⟨hostRead_exact, fun hbusy hi => if_pos ⟨hbusy, hi⟩⟩

/-! ## Writes while idle -/

theorem hostWrite_of_idle (s : State) (i : HostIndex) (v : Word) (h : s.idle) :
    s.hostWrite i v = s.hostWriteIdle i v :=
  if_neg (by rw [h]; exact Bool.false_ne_true)

/-- A byte of `BUF`. -/
theorem hostWriteIdle_buf (s : State) (v : Word) {k : Nat} (hk : k < 256) :
    s.hostWriteIdle (BitVec.ofNat 11 (0x100 + k)) v =
      { s with host := { s.host with buf := s.host.buf.write k (v.setWidth 8) } } := by
  have hbuf : 0x100 ≤ 0x100 + k ∧ 0x100 + k < 0x200 := by omega
  simp only [State.hostWriteIdle, toNat_ofNat_index (show 0x100 + k < 2048 by omega), if_pos hbuf,
    Nat.add_sub_cancel_left]

/-- Read-only and reserved indices. -/
theorem hostWriteIdle_ignored (s : State) (i : HostIndex) (v : Word)
    (h : (0x002 ≤ i.toNat ∧ i.toNat ≤ 0x004) ∨ (0x009 ≤ i.toNat ∧ i.toNat ≤ 0x0FF) ∨ 0x200 ≤ i.toNat) :
    s.hostWriteIdle i v = s := by
  have hbuf : ¬ (0x100 ≤ i.toNat ∧ i.toNat < 0x200) := by omega
  simp only [State.hostWriteIdle, if_neg hbuf]
  split
  on_goal -1 => rfl
  all_goals omega

/-- Settles O12: four registers, the window of `BUF`, and the indices that take no write. -/
theorem idleWrites : Obligations.IdleWrites := by
  intro s v hidle
  have hwrite (i : HostIndex) : s.external (.hostWrite i v) = s.hostWriteIdle i v := hostWrite_of_idle s i v hidle
  simp only [hwrite]
  exact ⟨rfl, rfl, rfl, rfl,
    fun k hk => ⟨_, hostWriteIdle_buf s v hk, fun a => Memory.read?_write s.host.buf k (v.setWidth 8) a⟩,
    fun i hi => hostWriteIdle_ignored s i v hi⟩

/-! ## The acknowledge -/

/-- Idle or busy, a word with bit 6 clears the pending bit and leaves the enable bit. -/
theorem hostWrite_acknowledge (s : State) {v : Word} (hv : v.getLsbD 6 = true) :
    (s.hostWrite 0x001 v).rf = { s.rf with rxpend := false } := by
  cases hbusy : s.seq.busy with
  | false => rw [hostWrite_status_idle s v hbusy, hv]; rfl
  | true => rw [hostWrite_status_busy s v hbusy, hv]; rfl

theorem external_hostWriteRx (s : State) (i : HostIndex) (v num : Word) :
    s.external (.hostWriteRx i v num) = (s.external (.hostWrite i v)).rxEvent := rfl

/-- Settles O14: the write first, then the event, which the enable bit decides. -/
theorem acknowledgeReceive : Obligations.AcknowledgeReceive := by
  intro s v num hv
  have hrf : (s.external (.hostWrite 0x001 v)).rf = { s.rf with rxpend := false } := hostWrite_acknowledge s hv
  rw [external_hostWriteRx]
  refine ⟨?_, fun hrxie => ?_, fun hrxie => ?_⟩
  · rw [State.irqRx, hrf, Bool.and_false]
  · rw [irqRx_iff, rxEvent_of_enabled (by rw [hrf]; exact hrxie), hrf]
    exact ⟨hrxie, rfl⟩
  · rw [rxEvent_of_disabled (by rw [hrf]; exact hrxie), hrf]

end Sys2Proof.Machine
end

section
/-! PROOFS. The state after reset meets the invariant, and an ESPB held in reset (70_reset_and_hazards.md R320, R321). -/

namespace Sys2Proof.Machine

/-- A state whose registers are all at their reset values meets the invariant, whatever its inputs and its record. -/
theorem inv_of_atReset {s : State} (h : s.AtReset) : s.Inv := by
  obtain ⟨hseq, hhost, hpt, hsw, hdsp, hrf⟩ := h
  have hidle : s.seq.busy = false := by rw [hseq]; rfl
  have hrunning : s.running = none := by rw [State.running, hidle]; rfl
  have hempty (size : Nat) : Memory.WellFormed [] size := ⟨List.Pairwise.nil, fun c hc => nomatch hc⟩
  refine ⟨⟨⟨?_, ?_⟩, fun _ => ?_, ?_, fun _ => ?_, fun hpend => ?_, fun _ => ?_⟩, fun _ => ⟨hseq, hhost, hpt, hsw, hdsp, hrf⟩,
    fun hbusy => ?_, ?_, ?_, .inr ⟨?_, ?_, ?_⟩, fun _ => .inl ?_, fun hinit => ?_⟩
  · rw [hhost]; exact hempty 256
  · rw [hdsp]; exact List.Pairwise.nil
  · rw [hseq]; exact ⟨rfl, rfl, rfl, rfl, rfl⟩
  · rw [hseq]; rfl
  · rw [hpt]; decide
  · rw [hrf] at hpend; exact absurd hpend (by decide)
  · rw [hsw]; exact ⟨rfl, rfl⟩
  · exact absurd (hidle.symm.trans hbusy) Bool.false_ne_true
  · rw [hdsp]; decide
  · rw [hdsp]; exact hempty 1024
  · rw [hdsp]; rfl
  · rw [hdsp]; rfl
  · rw [hrunning]; rfl
  · rw [hrf]; rfl
  · rw [hrf] at hinit; exact absurd hinit (by decide)

/-- Settles O47: all registers of `State.reset` have their reset values. -/
theorem invAtReset : Obligations.InvAtReset :=
  inv_of_atReset ⟨rfl, rfl, rfl, rfl, rfl, rfl⟩

/-- The next outside action of an ESPB held in reset. -/
theorem held_external {s : State} {e : External} {rest : List Input}
    (h : s.env.inputs = .ext e :: rest ∨ s.env.inputs = .early e :: rest) :
    s.held = (s.withInputs rest).externalHeld e := by
  rcases h with h | h <;> rw [State.held, h]

/-- Settles O52: one case for each kind of input. -/
theorem resetHeld : Obligations.ResetHeld := by
  intro s rest hinv hrst
  obtain ⟨-, hreset, -⟩ := hinv
  obtain ⟨hseq, -⟩ := hreset hrst
  have hidle : (s.withInputs rest).idle := by
    rw [State.idle, State.withInputs_seq, hseq]
    rfl
  rw [step_of_rst hrst]
  refine ⟨fun h => ?_, fun a h => ?_, fun e h => ?_⟩
  · rw [State.held, h]
  · rcases h with h | h <;> rw [State.held, h]
  · rw [held_external h]
    refine ⟨?_, ?_, ?_, ?_, ?_⟩
    · rintro i v rfl; rfl
    · rintro num rfl; rfl
    · rintro i v num rfl; rfl
    · rintro i rfl
      exact congrArg Host.Outcome.next (hostRead_exact (.inl hidle))
    · rintro b rfl; rfl

end Sys2Proof.Machine
end

section
/-! PROOFS. Single formulas and the one-step operation of RFC: the frequency word (30_encoding.md R111), the branch of
`B7` (40_compensator.md R154), the initialization list (42_display.md R214), `RF.ONRECV` (43_radio.md R267), and the
operand checks (30_encoding.md R103). -/

namespace Sys2Proof.Machine

/-! ## The frequency word -/

theorem frequencyWord_toNat (f : Word) : (frequencyWord f).toNat = f.toNat * 1000 / 61035 % 2 ^ 24 := by
  rw [frequencyWord, BitVec.toNat_ofNat]

/-- Three bytes, the most significant first. -/
theorem append_three_bytes (v : BitVec 24) : v.extractLsb 23 16 ++ v.extractLsb 15 8 ++ v.extractLsb 7 0 = v := by
  have hhigh : v.extractLsb' 16 8 ++ v.extractLsb' 8 8 = v.extractLsb' 8 16 :=
    BitVec.extractLsb'_append_extractLsb'_eq_extractLsb' (by rfl)
  have hall : v.extractLsb' 8 16 ++ v.extractLsb' 0 8 = v.extractLsb' 0 24 :=
    BitVec.extractLsb'_append_extractLsb'_eq_extractLsb' (by rfl)
  exact (congrArg (· ++ v.extractLsb' 0 8) hhigh).trans (hall.trans BitVec.extractLsb'_eq_self)

/-- Settles O33: the quotient fits 24 bits up to 1023997378. (The obligation's own name in lower case is the model's
function.) -/
theorem frequencyWord_correct : Obligations.FrequencyWord := by
  intro f
  have hword := frequencyWord_toNat f
  refine ⟨hword, fun hf => ?_, append_three_bytes _, ?_⟩
  · rw [Nat.mod_eq_of_lt (by omega)] at hword
    omega
  · rintro rfl
    decide

/-! ## The branch of `B7` -/

/-- Floor division of numbers is natural division where `DIV0` is 0. -/
theorem fdiv_zero_natCast (a b : Nat) : fdiv 0 a b = ((a / b : Nat) : Int) := by
  rcases Nat.eq_zero_or_pos b with rfl | hb
  · simp [fdiv]
  · rw [fdiv, if_neg (by omega), Int.fdiv_eq_ediv_of_nonneg _ (Int.natCast_nonneg b), Int.natCast_ediv]

/-- The low 32 bits of a natural number. -/
theorem ofInt_natCast_toNat (n : Nat) : (BitVec.ofInt 32 (n : Int)).toNat = n % 2 ^ 32 := by
  rw [BitVec.ofInt_natCast, BitVec.toNat_ofNat]

/-- Settles O22: doubled first, the quotient is at most the doubled dividend, which fits; doubled last, it wraps. -/
theorem pressureBranch : Obligations.PressureBranch := by
  intro b7 b4
  refine ⟨fun hlow => ?_, fun hhigh => ?_⟩
  · have hquotient : fdiv 0 (b7.toNat * 2) b4.toNat = ((b7.toNat * 2 / b4.toNat : Nat) : Int) :=
      fdiv_zero_natCast (b7.toNat * 2) b4.toNat
    have hfits : b7.toNat * 2 / b4.toNat ≤ b7.toNat * 2 := Nat.div_le_self _ _
    rw [compPu, if_pos hlow, hquotient, ofInt_natCast_toNat, Nat.mod_eq_of_lt (by omega)]
  · have hquotient : fdiv 0 b7.toNat b4.toNat * 2 = ((b7.toNat / b4.toNat * 2 : Nat) : Int) := by
      rw [fdiv_zero_natCast, Int.natCast_mul]
      rfl
    rw [compPu, if_neg (Nat.not_lt.mpr hhigh), hquotient, ofInt_natCast_toNat]

/-! ## The initialization list -/

/-- The bytes of a list of the shape R214 shows, for a display of height `h`. -/
theorem initCalls_table {p : DspInitBytes} {c : DspConfig} (a : TwAddr) {h : Byte} (hpos : 1 ≤ h.toNat)
    (hlist : c.initList = p.table) : initCalls c a h =
      ([p.cOff, p.cClkDiv, p.vClkDiv, p.cMux, h - 1, p.cOffset, 0, p.cStartLine, p.cChargePump, p.vCpOn,
        p.cAddrMode, p.vHoriz, p.cSegRemap, p.cComDir, p.cComPins,
        if h = 32 then p.vComPins32 else p.vComPinsOther,
        p.cContrast, p.vContrast, p.cPrecharge, p.vPrecharge, p.cVcomDesel, p.vVcomDesel, p.cAllOnResume,
        p.cNormal, p.cOn] : List Byte).map (Prim.twWrite8 a c.ctrlCmd) := by
  have hless : BitVec.ofNat 8 (h.toNat - 1) = h - 1 := by bv_omega
  have h32 : h.toNat = 32 ↔ h = 32 := BitVec.toNat_inj (y := 32)
  simp only [initCalls, hlist, DspInitBytes.table, List.map_cons, List.map_nil, hless, h32]

/-- Settles O53: the order and the numbers are read off the table, the bytes off its expressions. -/
theorem dspInitTable : Obligations.DspInitTable := by
  intro p c a h hpos
  exact ⟨rfl, rfl, initCalls_table a hpos, by decide, initCalls_table a hpos⟩

/-! ## `RF.ONRECV` -/

/-- Settles O38: the only step sets the enable bit. -/
theorem radioOnReceive : Obligations.RadioOnReceive := by
  intro s hidle hquiet
  have harm : exec .rfOnRecv s = .next (s.launch 0x42 fun _ => rfOnRecvSteps) := rfl
  exact exec_eq_of_runSteps hidle harm (runSteps_ended (s := s.start 0x42) hquiet (finish_ended _ _))

/-! ## Operand checks -/

theorem not_arg0AtMost {o : Operands} {hi : Nat} (h : o.arg0AtMost hi = false) : hi < o.arg0.toNat :=
  Nat.lt_of_not_le (of_decide_eq_false h)

/-- The operands of `RF.SEND` out of range: the lowest is raised. -/
theorem sendOperands_of_not_ok {o : Operands} (h : (o.arg0AtMost 255 && decide (o.len.toNat ≤ 254)) = false) :
    sendOperands o = some (.illegalOperand (if 255 < o.arg0.toNat then 0 else 3)) := by
  unfold sendOperands
  by_cases harg : 255 < o.arg0.toNat
  · rw [if_pos harg, if_pos harg]
  · have hlen : 254 < o.len.toNat := by
      by_contra hlegal
      rw [Operands.arg0AtMost, decide_eq_true (Nat.le_of_not_lt harg),
        decide_eq_true (Nat.le_of_not_lt hlegal)] at h
      exact Bool.noConfusion h
    rw [if_neg harg, if_pos hlen, if_neg harg]

/-- Settles O39: an operation with an operand range checks it in its first step. -/
theorem operandsAreChecked : Obligations.OperandsAreChecked := by
  intro i s hidle hquiet hbad
  cases i with
  | ptInit => exact exec_ptInit_illegal s hidle (not_arg0AtMost hbad) hquiet
  | swReadT =>
    exact exec_eq_raise_of_first hidle (exec_swReadT s) hquiet (guardStep_some (if_pos (not_arg0AtMost hbad)))
  | swReadH =>
    exact exec_eq_raise_of_first hidle (exec_swReadH s) hquiet (guardStep_some (if_pos (not_arg0AtMost hbad)))
  | dspInit => exact exec_dspInit_illegal hidle hbad hquiet
  | rfSend =>
    exact exec_eq_raise_of_first hidle (exec_rfSend hidle) hquiet (guardStep_some (sendOperands_of_not_ok hbad))
  | ptReadT | ptReadP | swSetCal | dspClear | dspShowStr | dspShowNum | rfInit | rfOnRecv => cases hbad

end Sys2Proof.Machine
end

section
/-! PROOFS. `PT.READP` (40_compensator.md R150) and the numbers it returns (R152 to R157). -/

namespace Sys2Proof.Machine

/-! ## The four failing accesses -/

section
variable {s : State} (hidle : s.idle) (hinit : s.pt.init = true) (x y z r : BitVec 24) {rest : List Input}
include hidle hinit

/-- The command of the second measurement is not acknowledged: the temperature is already there. -/
theorem exec_ptReadP_noCommand
    (hin : s.env.inputs = .answer ⟨true, y⟩ :: .answer ⟨true, x⟩ :: .answer ⟨false, z⟩ :: rest) :
    exec .ptReadP s = .next ({ s.after 0x12 rest
        (measureEvents s true x ++ [writeEvent s.pt.addr s.cfg.pt.regCtrl s.cfg.pt.cmdPres false]) with
      pt := s.ptMeasured x }.raise (.busError 13)) := by
  refine exec_eq_of_reading hidle hinit (hin ▸ rfl) (exec_ptReadP s) ?_
  rw [hin]
  exact (runSteps_measureT s 0x12 2 _ x y _ rfl).trans
    (runSteps_access_nack s 0x12 6 (s.ptMeasured x) _ _ rfl rfl)

/-- The second sample is not acknowledged. -/
theorem exec_ptReadP_noSample
    (hin : s.env.inputs =
      .answer ⟨true, y⟩ :: .answer ⟨true, x⟩ :: .answer ⟨true, z⟩ :: .answer ⟨false, r⟩ :: rest) :
    exec .ptReadP s = .next ({ s.after 0x12 rest
        (measureEvents s true x ++ [writeEvent s.pt.addr s.cfg.pt.regCtrl s.cfg.pt.cmdPres true,
          ⟨.delayMs 26, ⟨true, 0⟩⟩, ⟨.twRead24 s.pt.addr s.cfg.pt.regData, ⟨false, r⟩⟩]) with
      pt := s.ptMeasured x }.raise (.busError 14)) := by
  refine exec_eq_of_reading hidle hinit (hin ▸ rfl) (exec_ptReadP s) ?_
  rw [hin]
  refine (runSteps_measureT s 0x12 2 _ x y _ rfl).trans ?_
  refine (runSteps_access_ack s 0x12 6 (s.ptMeasured x) _ _ rfl rfl rfl).trans ?_
  refine (runSteps_delay s 0x12 7 (s.ptMeasured x) _ _ 26 rfl).trans ?_
  exact runSteps_access_nack s 0x12 8 (s.ptMeasured x) rest _ rfl rfl

end

/-- Settles O20: the guard, the two failures of `MeasureT`, the two failures after it, and the whole run. -/
theorem ptReadPressure : Obligations.PtReadPressure := by
  intro s hidle
  refine ⟨fun hinit hquiet => ?_, fun hinit x y z r rest => ⟨fun hin => ?_, fun hin => ?_, _, rfl,
    exec_ptReadP_noCommand hidle hinit x y z, exec_ptReadP_noSample hidle hinit x y z r,
    exec_ptReadP_completes s hidle hinit x y z r rest⟩⟩
  · exact exec_eq_raise_of_first hidle (exec_ptReadP s) hquiet (needsInit_unset hinit)
  · refine exec_eq_of_reading hidle hinit (hin ▸ rfl) (exec_ptReadP s) ?_
    rw [hin]
    exact runSteps_measureT_noCommand s 0x12 2 _ y rest
  · refine exec_eq_of_reading hidle hinit (hin ▸ rfl) (exec_ptReadP s) ?_
    rw [hin]
    exact runSteps_measureT_noSample s 0x12 2 _ x y rest

/-! ## The second stage of the data sheet -/

/-- A divisor that is not 0 makes `fdiv` floor division. -/
theorem fdiv_of_ne_zero (div0 a : Int) {b : Int} (hb : b ≠ 0) : fdiv div0 a b = Int.fdiv a b := if_neg hb

/-- `B3` for the oversampling setting 3. -/
theorem dataSheetStage2a_fst (c : CalSet) (b5 : Int) : (dataSheetStage2a 0 3 b5 c.coefs).1 = specB3 c b5 := rfl

/-- `B4` is a register of 32 bits that holds at most 17. -/
theorem dataSheetStage2a_snd (c : CalSet) (b5 : Int) :
    (dataSheetStage2a 0 3 b5 c.coefs).2 = BitVec.ofInt 32 (specB4 c b5) := rfl

theorem specB4_bounds (c : CalSet) (b5 : Int) : 0 ≤ specB4 c b5 ∧ specB4 c b5 < 131072 := by
  rw [specB4, Int.fdiv_eq_ediv_of_nonneg _ (by decide)]
  omega

/-- The register `B4` holds the number. -/
theorem specB4_toNat (c : CalSet) (b5 : Int) : ((BitVec.ofInt 32 (specB4 c b5)).toNat : Int) = specB4 c b5 := by
  obtain ⟨hlow, hhigh⟩ := specB4_bounds c b5
  rw [BitVec.toNat_ofInt]
  omega

/-- The register `B7` holds the number modulo 2^32. -/
theorem compB7_toNat {c : PtConfig} (hoss : c.oss = 3) (up : BitVec 19) (b3 : Int) :
    ((compB7 c up b3).toNat : Int) = ((up.toNat - b3) * 6250) % 4294967296 := by
  have hfactor : fdiv c.div0 50000 (2 ^ c.oss) = 6250 := by
    rw [hoss]
    rfl
  rw [compB7, hfactor, BitVec.toNat_ofInt]
  omega

/-- `pu` is the number of R154: the doubled quotient is below 2^32 where it is not reduced. -/
theorem compPu_toNat (b7 b4 : Word) : ((compPu 0 b7 b4).toNat : Int) = specPu b7.toNat b4.toNat := by
  obtain ⟨hlow, hhigh⟩ := pressureBranch b7 b4
  have hdiv (a : Nat) : Int.fdiv a b4.toNat = ((a / b4.toNat : Nat) : Int) := by
    rw [Int.fdiv_eq_ediv_of_nonneg _ (Int.natCast_nonneg _), Int.natCast_ediv]
  unfold specPu
  split
  · rename_i hzero
    have hb4 : b4.toNat = 0 := by omega
    rcases Nat.lt_or_ge b7.toNat (2 ^ 31) with h | h
    · rw [hlow h, hb4, Nat.div_zero]
      rfl
    · rw [hhigh h, hb4, Nat.div_zero]
      rfl
  · split
    · rename_i h
      rw [hlow (by omega)]
      exact (hdiv (b7.toNat * 2)).symm
    · rename_i h
      rw [hhigh (by omega), hdiv]
      omega

/-- A 32-bit register read as a signed number. -/
theorem toInt_eq_ite (v : Word) :
    v.toInt = if (v.toNat : Int) < 2147483648 then (v.toNat : Int) else v.toNat - 4294967296 := by
  rw [BitVec.toInt_eq_toNat_cond]
  split <;> split <;> omega

/-- R155 is the last part of the formula, for the number `pu` read as signed. -/
theorem specPressure_eq_stage2b (k : CalSet) (n : Int) (up : Nat) {pu : Int}
    (hpu : pu = specPu (((up - specB3 k n) * 6250) % 4294967296) (specB4 k n)) :
    specPressure k n up = dataSheetStage2b 0 (if pu < 2147483648 then pu else pu - 4294967296) := by
  rw [hpu]
  rfl

/-- The machine's pressure is the formula. -/
theorem compPressure_eq_specPressure {c : PtConfig} (hstage : c.stage2 = .dataSheet) (hoss : c.oss = 3)
    (hdiv0 : c.div0 = 0) (k : CalSet) {b5 : Word} {n : Int} (hb5 : b5.toInt = n) (up : BitVec 19) :
    compPressure c k.coefs b5 up = specPressure k n up.toNat := by
  have hstage2a : stage2a c b5.toInt k.coefs = (specB3 k n, BitVec.ofInt 32 (specB4 k n)) := by
    rw [stage2a, hstage, hoss, hdiv0, hb5]
    rfl
  have hcomp : compPressure c k.coefs b5 up = stage2b c (compPu c.div0 (compB7 c up (stage2a c b5.toInt k.coefs).1)
      (stage2a c b5.toInt k.coefs).2).toInt := rfl
  have hpu := compPu_toNat (compB7 c up (specB3 k n)) (BitVec.ofInt 32 (specB4 k n))
  rw [compB7_toNat hoss, specB4_toNat] at hpu
  rw [hcomp, hstage2a, stage2b, hstage, hdiv0, toInt_eq_ite, specPressure_eq_stage2b k n up.toNat hpu]

/-- A zero `B4` makes `pu` 0, whatever `B7` is. -/
theorem specPressure_of_zero {k : CalSet} {n : Int} (h : specB4 k n = 0) (up : Nat) : specPressure k n up = 236 := by
  have hpu (b7 : Int) : specPu b7 0 = 0 := if_pos rfl
  simp only [specPressure, h, hpu]
  decide

/-- Settles O21: each register of the second stage holds the number of the formula. -/
theorem pressureFormula : Obligations.PressureFormula := by
  intro c k ut up hut hstage hoss hdiv0 hround
  have hpressure := compPressure_eq_specPressure hstage hoss hdiv0 k (specB5_toInt k hut) up
  have hp10 (p : Int) : compP10 c p = Int.fdiv (p + 5) 10 := by
    rw [compP10, hround]
    exact fdiv_of_ne_zero _ _ (by decide)
  refine ⟨hpressure, hp10, fun hzero => ⟨?_, ?_⟩⟩
  · rw [hpressure, specPressure_of_zero hzero]
  · rw [hp10]
    decide

end Sys2Proof.Machine
end

section
/-! PROOFS. What comes of a run (10_state.md R24; log 11) in terms of a property `P` that a state in flight has, and a
property `E` that the state has when the operation is over: one rule for the actions that come before a step, one for a
step that asks, one for a list of steps. -/

namespace Sys2Proof.Machine

/-! ## What comes of a step -/

/-- SEQ goes on with `G` of the steps passed over and the state, the operation is over with `E`, or it waits with
`W`. -/
def Stepped.Post (G : Nat → State → Prop) (E W : State → Prop) : Stepped → Prop
  | .go k s => G k s
  | .ended s => E s
  | .wait s => W s

/-- The same for one answer inside a step that may ask again; `A` is the property when it does. -/
def Served.Post (A : State → Prop) (G : Nat → State → Prop) (E W : State → Prop) : Served → Prop
  | .again s => A s
  | .leave r => r.Post G E W

theorem Stepped.Post.imp {G G' : Nat → State → Prop} {E E' W W' : State → Prop} {r : Stepped} (h : r.Post G E W)
    (hG : ∀ k s, G k s → G' k s) (hE : ∀ s, E s → E' s) (hW : ∀ s, W s → W' s) : r.Post G' E' W' := by
  cases r with
  | go k s => exact hG k s h
  | ended s => exact hE s h
  | wait s => exact hW s h

/-- What holds however a step goes on, ends or waits holds of the state it leaves. -/
theorem Stepped.Post.current {Q : State → Prop} {r : Stepped} (h : r.Post (fun _ => Q) Q Q) : Q r.current := by
  cases r <;> exact h

/-! ## Properties the outside keeps -/

/-- `P` is kept by whatever the outside does to an operation in flight but for a reset, which makes it `E`. -/
structure Undisturbed (P E : State → Prop) : Prop where
  pass : ∀ {s : State} {rest : List Input}, s.env.inputs = .pass :: rest → P s → P (s.withInputs rest)
  ext : ∀ {s : State} {e : External} {rest : List Input},
    (s.env.inputs = .ext e :: rest ∨ s.env.inputs = .early e :: rest) → s.resetBy e = false → P s →
      P ((s.withInputs rest).external e)
  reset : ∀ {s : State} {e : External} {rest : List Input},
    (s.env.inputs = .ext e :: rest ∨ s.env.inputs = .early e :: rest) → s.resetBy e = true → P s →
      E ((s.withInputs rest).external e)

/-- The same, and `P` is kept by SEQ moving on. -/
structure Stable (P E : State → Prop) : Prop extends Undisturbed P E where
  phase : ∀ {s : State}, P s → P s.nextPhase

/-- No outside action changes the inputs still to come. -/
@[simp] theorem external_inputs (s : State) (e : External) : (s.external e).env.inputs = s.env.inputs := by
  cases h : s.resetBy e with
  | false => exact (external_frame s e h).2.2.2.2.2.2.2.1
  | true =>
    cases e with
    | rst b => simp [State.external, h]
    | hostRead i | hostWrite i v | rxEvent n | hostWriteRx i v n => cases h

@[simp] theorem resetBy_withInputs (s : State) (l : List Input) (e : External) :
    (s.withInputs l).resetBy e = s.resetBy e := by
  cases e <;> rfl

section
variable {P E W : State → Prop} {G : Nat → State → Prop}

/-- The actions before a step. -/
theorem absorb_post (hs : Undisturbed P E) {s : State} (h : P s) :
    (absorb s.env.inputs s).Post (fun k t => k = 0 ∧ P t) E (fun _ => False) := by
  generalize hl : s.env.inputs = l
  induction l generalizing s with
  | nil => exact ⟨rfl, h⟩
  | cons i rest ih =>
    cases i with
    | answer a => exact ⟨rfl, h⟩
    | pass => exact ⟨rfl, hs.pass hl h⟩
    | ext e => exact ⟨rfl, h⟩
    | early e =>
      unfold absorb
      dsimp only
      split
      · rename_i hr
        exact hs.reset (.inr hl) hr h
      · rename_i hr
        exact ih (hs.ext (.inr hl) (Bool.eq_false_iff.mpr hr) h) (by simp)

/-- A step that asks: the answers decide, everything else keeps `P`; it waits when no input is left. -/
theorem serve_post (hs : Undisturbed P E) {prim : State → Prim} {reply : Answer → State → Served}
    (hwait : ∀ {s : State}, s.env.inputs = [] → P s → W s)
    (hreply : ∀ {s : State} {raw : Answer} {rest : List Input}, s.env.inputs = .answer raw :: rest → P s →
      (reply ((prim s).returns raw) ((s.withInputs rest).record (prim s) ((prim s).returns raw))).Post
        (fun t => t.env.inputs = rest ∧ P t) G E W)
    {s : State} (h : P s) : (serve prim reply s.env.inputs s).Post G E W := by
  generalize hl : s.env.inputs = l
  induction l generalizing s with
  | nil =>
    rw [serve_nil, ← hl]
    exact hwait hl h
  | cons i rest ih =>
    cases i with
    | answer raw =>
      have hpost := hreply hl h
      rw [serve_answer]
      cases hr : reply ((prim s).returns raw) ((s.withInputs rest).record (prim s) ((prim s).returns raw)) with
      | again t =>
        rw [hr] at hpost
        exact ih hpost.2 hpost.1
      | leave r =>
        rw [hr] at hpost
        exact hpost
    | pass => exact ih (hs.pass hl h) rfl
    | ext e =>
      unfold serve
      dsimp only
      split
      · rename_i hr
        exact hs.reset (.inl hl) hr h
      · rename_i hr
        exact ih (hs.ext (.inl hl) (Bool.eq_false_iff.mpr hr) h) (by simp)
    | early e =>
      unfold serve
      dsimp only
      split
      · rename_i hr
        exact hs.reset (.inr hl) hr h
      · rename_i hr
        exact ih (hs.ext (.inr hl) (Bool.eq_false_iff.mpr hr) h) (by simp)

/-- The first step of a list, and what it leaves to the others. -/
theorem runSteps_cons_post (hs : Stable P E) {m : MicroStep} {ms : List MicroStep}
    (hm : ∀ {t : State}, P t → (m t).Post (fun k u => (runSteps ms k u.nextPhase).Post G E W) E W)
    {s : State} (h : P s) : (runSteps (m :: ms) 0 s).Post G E W := by
  have habsorb := absorb_post hs.toUndisturbed h
  unfold runSteps
  cases hr : absorb s.env.inputs s with
  | go k t =>
    rw [hr] at habsorb
    have hstep := hm habsorb.2
    dsimp only
    cases hmt : m t with
    | go k u => rw [hmt] at hstep; exact hstep
    | ended u => rw [hmt] at hstep; exact hstep
    | wait u => rw [hmt] at hstep; exact hstep
  | ended t => rw [hr] at habsorb; exact habsorb
  | wait t => rw [hr] at habsorb; exact habsorb.elim

/-- Two lists of steps one after the other. -/
theorem runSteps_append_post {a b : List MicroStep} {k : Nat} {s : State}
    (h : (runSteps a k s).Post (fun k t => (runSteps b k t).Post G E W) E W) :
    (runSteps (a ++ b) k s).Post G E W := by
  rw [runSteps_append]
  cases hr : runSteps a k s <;> rw [hr] at h <;> exact h

/-- A list whose steps all keep `P` keeps it. -/
theorem runSteps_post (hs : Stable P E) {ms : List MicroStep}
    (hms : ∀ m ∈ ms, ∀ {t : State}, P t → (m t).Post (fun _ => P) E P) (k : Nat) {s : State} (h : P s) :
    (runSteps ms k s).Post (fun _ => P) E P := by
  induction ms generalizing k s with
  | nil => exact h
  | cons m ms ih =>
    have hlater {j : Nat} {t : State} (ht : P t) : (runSteps ms j t.nextPhase).Post (fun _ => P) E P :=
      ih (fun m' hm' => hms m' (List.mem_cons_of_mem m hm')) j (hs.phase ht)
    cases k with
    | succ k => exact hlater h
    | zero =>
      exact runSteps_cons_post hs (fun ht => (hms m List.mem_cons_self ht).imp (fun _ _ hu => hlater hu)
        (fun _ => id) (fun _ => id)) h

end

end Sys2Proof.Machine
end

section
/-! PROOFS. What an operation in flight can change (60_exceptions.md R296, R304; 10_state.md R22, R28, R33, R41): one
relation between a state in flight and a later one, kept by every register change of the operation's own unit, by every
call it may make and by every outside action but a reset; and the ways in which the operation can be over. -/

namespace Sys2Proof.Machine

/-! ## Orderly registers -/

/-- What `State.Canonical` says of a state whatever SEQ is at. -/
structure State.Orderly (s : State) : Prop where
  buf : s.host.buf.WellFormed 256
  fb : Memory.Rising s.dsp.fb
  cause : s.seq.cause.extractLsb' 4 4 = 0
  up : s.cfg.pt.upShift = 8 → s.pt.up.toNat < 2 ^ 16
  pending : s.rf.rxpend = true → s.rf.rxie = true
  cache : s.sw.haveFrame = false → s.sw.lastT = 0 ∧ s.sw.lastH = 0

/-- SEQ has no step, no temporaries and no driven pin. -/
def State.Cleared (s : State) : Prop :=
  s.seq.phase = 0 ∧ s.seq.acc = 0 ∧ s.seq.polls = 0 ∧ s.seq.midRead = false ∧ s.seq.pinLow = none

theorem canonical_iff (s : State) : s.Canonical ↔ s.Orderly ∧ (s.seq.busy = false → s.Cleared) :=
  ⟨fun ⟨⟨hbuf, hfb⟩, hidle, hcause, hup, hpending, hcache⟩ => ⟨⟨hbuf, hfb, hcause, hup, hpending, hcache⟩, hidle⟩,
    fun ⟨⟨hbuf, hfb, hcause, hup, hpending, hcache⟩, hidle⟩ =>
      ⟨⟨hbuf, hfb⟩, hidle, hcause, hup, hpending, hcache⟩⟩

/-! ## Advancing -/

/-- The calls among the events that ask the environment. -/
def askedBy (events : List Event) : List Event := events.filter fun e => e.prim.asks

theorem askedBy_singleton {p : Prim} {a : Answer} (h : p.asks = true) : (askedBy [⟨p, a⟩]).length = 1 := by
  simp [askedBy, h]

/-- The answers among the inputs. -/
def answersIn (l : List Input) : List Input := l.filter Input.isAnswer

/-- From the state `s` operation `i` can have come to `t` without ending. -/
structure Advance (i : Instr) (s t : State) : Prop where
  cfg : t.cfg = s.cfg
  busy : t.seq.busy = s.seq.busy
  op : t.seq.op = s.seq.op
  cause : t.seq.cause = s.seq.cause
  results : sameResults s t
  args : t.host.arg0 = s.host.arg0 ∧ t.host.arg1 = s.host.arg1 ∧ t.host.arg2 = s.host.arg2
  text : i ≠ .dspShowNum → t.host.len = s.host.len ∧ t.host.buf = s.host.buf
  pt : i.isPtc = false → t.pt = s.pt
  sw : i.isSwd = false → t.sw = s.sw
  dsp : i.isFtr = false → t.dsp = s.dsp
  rf : i.isRfc = false → t.rf = s.rf.butPending t.rf.rxpend
  rst : t.env.rst = s.env.rst
  epoch : t.env.epoch = s.env.epoch
  /-- One asking call has been made for each answer taken. -/
  ledger : ∃ taken events, s.env.inputs = taken ++ t.env.inputs ∧ t.env.trace = s.env.trace ++ events ∧
    (∀ e ∈ events, mayCall i e.prim = true) ∧ (askedBy events).length = (answersIn taken).length
  orderly : s.Orderly → t.Orderly

theorem Advance.refl (i : Instr) (s : State) : Advance i s s where
  cfg := rfl
  busy := rfl
  op := rfl
  cause := rfl
  results := ⟨rfl, rfl⟩
  args := ⟨rfl, rfl, rfl⟩
  text _ := ⟨rfl, rfl⟩
  pt _ := rfl
  sw _ := rfl
  dsp _ := rfl
  rf _ := rfl
  rst := rfl
  epoch := rfl
  ledger := ⟨[], [], rfl, by simp, by simp, rfl⟩
  orderly := id

theorem Advance.trans {i : Instr} {s t u : State} (h : Advance i s t) (h' : Advance i t u) : Advance i s u where
  cfg := h'.cfg.trans h.cfg
  busy := h'.busy.trans h.busy
  op := h'.op.trans h.op
  cause := h'.cause.trans h.cause
  results := ⟨h'.results.1.trans h.results.1, h'.results.2.trans h.results.2⟩
  args := ⟨h'.args.1.trans h.args.1, h'.args.2.1.trans h.args.2.1, h'.args.2.2.trans h.args.2.2⟩
  text hi := ⟨(h'.text hi).1.trans (h.text hi).1, (h'.text hi).2.trans (h.text hi).2⟩
  pt hi := (h'.pt hi).trans (h.pt hi)
  sw hi := (h'.sw hi).trans (h.sw hi)
  dsp hi := (h'.dsp hi).trans (h.dsp hi)
  rf hi := by rw [h'.rf hi, h.rf hi]; rfl
  rst := h'.rst.trans h.rst
  epoch := h'.epoch.trans h.epoch
  ledger := by
    obtain ⟨taken, events, hin, htrace, hcalls, hcount⟩ := h.ledger
    obtain ⟨taken', events', hin', htrace', hcalls', hcount'⟩ := h'.ledger
    refine ⟨taken ++ taken', events ++ events', by rw [hin, hin', List.append_assoc],
      by rw [htrace', htrace, List.append_assoc], fun e he => ?_, ?_⟩
    · exact (List.mem_append.mp he).elim (hcalls e) (hcalls' e)
    · simp only [askedBy, answersIn, List.filter_append, List.length_append] at hcount hcount' ⊢
      rw [hcount, hcount']
  orderly := h'.orderly ∘ h.orderly

/-- The same within one step: SEQ has not moved on. -/
structure Change (i : Instr) (s t : State) : Prop extends Advance i s t where
  phase : t.seq.phase = s.seq.phase

theorem Change.refl (i : Instr) (s : State) : Change i s s := ⟨Advance.refl i s, rfl⟩

theorem Change.trans {i : Instr} {s t u : State} (h : Change i s t) (h' : Change i t u) : Change i s u :=
  ⟨h.toAdvance.trans h'.toAdvance, h'.phase.trans h.phase⟩

/-! ## The changes of an operation -/

section
variable {i : Instr} (s : State)

/-- The temporaries. -/
theorem change_seq {q : Seq} (hbusy : q.busy = s.seq.busy) (hop : q.op = s.seq.op) (hcause : q.cause = s.seq.cause)
    (hphase : q.phase = s.seq.phase) :
    Change i s { s with seq := q } :=
  { Change.refl i s with
    busy := hbusy, op := hop, cause := hcause, phase := hphase
    orderly := fun ⟨hbuf, hfb, hzero, hup, hpending, hcache⟩ =>
      ⟨hbuf, hfb, hcause ▸ hzero, hup, hpending, hcache⟩ }

theorem change_pt {p : Ptc} (hi : i.isPtc = true)
    (hup : s.cfg.pt.upShift = 8 → s.pt.up.toNat < 2 ^ 16 → p.up.toNat < 2 ^ 16) : Change i s { s with pt := p } :=
  { Change.refl i s with
    pt := fun h => absurd (hi.symm.trans h) Bool.noConfusion
    orderly := fun ⟨hbuf, hfb, hcause, hold, hpending, hcache⟩ =>
      ⟨hbuf, hfb, hcause, fun h => hup h (hold h), hpending, hcache⟩ }

theorem change_sw {w : Swd} (hi : i.isSwd = true)
    (hcache : (s.sw.haveFrame = false → s.sw.lastT = 0 ∧ s.sw.lastH = 0) → w.haveFrame = false →
      w.lastT = 0 ∧ w.lastH = 0) : Change i s { s with sw := w } :=
  { Change.refl i s with
    sw := fun h => absurd (hi.symm.trans h) Bool.noConfusion
    orderly := fun ⟨hbuf, hfb, hcause, hup, hpending, hold⟩ => ⟨hbuf, hfb, hcause, hup, hpending, hcache hold⟩ }

theorem change_dsp {d : Ftr} (hi : i.isFtr = true) (hfb : Memory.Rising s.dsp.fb → Memory.Rising d.fb) :
    Change i s { s with dsp := d } :=
  { Change.refl i s with
    dsp := fun h => absurd (hi.symm.trans h) Bool.noConfusion
    orderly := fun ⟨hbuf, hold, hcause, hup, hpending, hcache⟩ =>
      ⟨hbuf, hfb hold, hcause, hup, hpending, hcache⟩ }

theorem change_rf {r : Rfc} (hi : i.isRfc = true)
    (hpending : (s.rf.rxpend = true → s.rf.rxie = true) → r.rxpend = true → r.rxie = true) :
    Change i s { s with rf := r } :=
  { Change.refl i s with
    rf := fun h => absurd (hi.symm.trans h) Bool.noConfusion
    orderly := fun ⟨hbuf, hfb, hcause, hup, hold, hcache⟩ => ⟨hbuf, hfb, hcause, hup, hpending hold, hcache⟩ }

/-- R230 step 2: `DSP.SHOWNUM` writes its text. -/
theorem change_formatNumber : Change .dspShowNum s (formatNumber s) :=
  { Change.refl .dspShowNum s with
    text := fun h => absurd rfl h
    orderly := fun ⟨hbuf, hfb, hcause, hup, hpending, hcache⟩ =>
      ⟨Memory.writeBytes_wellFormed hbuf 0 _ (by have := (decimalText_length s.host.arg2.toInt).2; omega),
        hfb, hcause, hup, hpending, hcache⟩ }

/-- A call that returns nothing. -/
theorem change_record {p : Prim} (a : Answer) (hcall : mayCall i p = true) (hsilent : p.asks = false) :
    Change i s (s.record p a) :=
  { Change.refl i s with
    ledger := ⟨[], [⟨p, a⟩], rfl, rfl, by simpa using hcall, by simp [askedBy, answersIn, hsilent]⟩
    orderly := fun ⟨hbuf, hfb, hcause, hup, hpending, hcache⟩ => ⟨hbuf, hfb, hcause, hup, hpending, hcache⟩ }

variable {s}

/-- A call that is answered. -/
theorem change_answer {p : Prim} {raw a : Answer} {rest : List Input} (hin : s.env.inputs = .answer raw :: rest)
    (hcall : mayCall i p = true) (hasks : p.asks = true) : Change i s ((s.withInputs rest).record p a) :=
  { Change.refl i s with
    ledger := ⟨[.answer raw], [⟨p, a⟩], hin, rfl, by simpa using hcall,
      askedBy_singleton hasks⟩
    orderly := fun ⟨hbuf, hfb, hcause, hup, hpending, hcache⟩ => ⟨hbuf, hfb, hcause, hup, hpending, hcache⟩ }

/-- An input that is no answer is taken. -/
theorem change_take {x : Input} {rest : List Input} (hin : s.env.inputs = x :: rest) (hx : x.isAnswer = false) :
    Change i s (s.withInputs rest) :=
  { Change.refl i s with
    ledger := ⟨[x], [], hin, by simp, by simp, by simp [askedBy, answersIn, hx]⟩
    orderly := fun ⟨hbuf, hfb, hcause, hup, hpending, hcache⟩ => ⟨hbuf, hfb, hcause, hup, hpending, hcache⟩ }

/-- Busy or idle, an outside action other than a reset sets the pending bit only where it is enabled. -/
theorem external_pending (e : External) (hr : s.resetBy e = false) (h : s.rf.rxpend = true → s.rf.rxie = true) :
    (s.external e).rf.rxpend = true → (s.external e).rf.rxie = true := by
  have hwrite (j : HostIndex) (v : Word) : (s.hostWrite j v).rf.rxpend = true → (s.hostWrite j v).rf.rxie = true := by
    unfold State.hostWrite State.hostWriteBusy State.hostWriteIdle
    dsimp only
    repeat' split
    all_goals simp_all
  have hevent {t : State} (ht : t.rf.rxpend = true → t.rf.rxie = true) :
      t.rxEvent.rf.rxpend = true → t.rxEvent.rf.rxie = true := by
    unfold State.rxEvent
    split
    · rename_i hrxie
      exact fun _ => hrxie
    · exact ht
  cases e with
  | hostRead j =>
    unfold State.external State.hostRead
    dsimp only
    split <;> exact h
  | hostWrite j v => exact hwrite j v
  | rxEvent n => exact hevent h
  | hostWriteRx j v n => exact hevent (hwrite j v)
  | rst b => simpa [State.external, hr] using h

/-- An outside action other than a reset. -/
theorem change_external {e : External} (hr : s.resetBy e = false) (hbusy : s.seq.busy = true) :
    Change i s (s.external e) := by
  obtain ⟨hcfg, hpt, hsw, hdsp, hrf, hseq, htrace, hin, hepoch, hrst⟩ := external_frame s e hr
  have hhost := external_busy_host s e hr hbusy
  refine ⟨⟨hcfg, by rw [hseq], by rw [hseq], by rw [hseq], by rw [sameResults, hhost]; exact ⟨rfl, rfl⟩,
    by rw [hhost]; exact ⟨rfl, rfl, rfl⟩, fun _ => by rw [hhost]; exact ⟨rfl, rfl⟩, fun _ => hpt, fun _ => hsw,
    fun _ => hdsp, fun _ => hrf, hrst, hepoch,
    ⟨[], [], hin.symm, by rw [htrace, List.append_nil], by simp, rfl⟩,
    fun ⟨hbuf, hfb, hcause, hup, hpending, hcache⟩ => ⟨by rw [hhost]; exact hbuf, by rw [hdsp]; exact hfb,
      by rw [hseq]; exact hcause, by rw [hcfg, hpt]; exact hup, external_pending e hr hpending,
      by rw [hsw]; exact hcache⟩⟩, by rw [hseq]⟩

/-- SEQ moves on. -/
theorem advance_nextPhase (s : State) : Advance i s s.nextPhase :=
  { Advance.refl i s with
    orderly := fun ⟨hbuf, hfb, hcause, hup, hpending, hcache⟩ => ⟨hbuf, hfb, hcause, hup, hpending, hcache⟩ }

end

/-! ## The end of an operation -/

/-- What follows the last state in flight `s`: an exception `ok` allows, normal completion with some results, or a
reset. -/
inductive Closes (ok : Cause → Prop) (s : State) : State → Prop
  | raised (c : Cause) (h : ok c) : Closes ok s (s.raise c)
  | finished (r0 r1 : Word) : Closes ok s { s with host := { s.host with ret0 := r0, ret1 := r1 } }.done
  | reset (e : External) (rest : List Input)
      (hin : s.env.inputs = .ext e :: rest ∨ s.env.inputs = .early e :: rest) (hr : s.resetBy e = true) :
      Closes ok s ((s.withInputs rest).external e)

/-- The causes operation `i` may end with (R303). -/
def mayRaise (i : Instr) (c : Cause) : Prop := mayEndWith i c.code c.info = true

/-- From `s` operation `i` can have come to an end in `t`. -/
def Concludes (i : Instr) (ok : Cause → Prop) (s t : State) : Prop := ∃ u, Advance i s u ∧ Closes ok u t

/-- The state is in flight and `i` can have come to it from `s`. -/
def Reached (i : Instr) (s t : State) : Prop := t.seq.busy = true ∧ Advance i s t

theorem Reached.advance {i : Instr} {s t u : State} (h : Reached i s t) (h' : Advance i t u) : Reached i s u :=
  ⟨h'.busy.trans h.1, h.2.trans h'⟩

theorem Reached.conclude {i : Instr} {ok : Cause → Prop} {s t u : State} (h : Reached i s t)
    (h' : Concludes i ok t u) : Concludes i ok s u := by
  obtain ⟨v, hv, hclose⟩ := h'
  exact ⟨v, h.2.trans hv, hclose⟩

theorem change_take_external {i : Instr} {s : State} {e : External} {rest : List Input}
    (hin : s.env.inputs = .ext e :: rest ∨ s.env.inputs = .early e :: rest) (hr : s.resetBy e = false)
    (hbusy : s.seq.busy = true) : Change i s ((s.withInputs rest).external e) := by
  have htake : Change i s (s.withInputs rest) := hin.elim (change_take · rfl) (change_take · rfl)
  exact htake.trans (change_external (by rw [resetBy_withInputs, hr]) hbusy)

theorem stable_reached (i : Instr) (ok : Cause → Prop) (s : State) : Stable (Reached i s) (Concludes i ok s) where
  pass hin h := h.advance (change_take hin rfl).toAdvance
  ext hin hr h := h.advance (change_take_external hin hr h.1).toAdvance
  reset hin hr h := h.conclude ⟨_, Advance.refl i _, .reset _ _ hin hr⟩
  phase h := h.advance (advance_nextPhase _)

end Sys2Proof.Machine
end

section
/-! PROOFS. The form of a step (10_state.md R24; logs 2 and 11): it never waits, or it asks the environment; and what it
does depends neither on the pending bit, nor on the record of host reads, nor on inputs beyond the answers it takes. -/

namespace Sys2Proof.Machine

/-! ## What no step looks at -/

/-- `s` with another pending bit, another record of host reads and other inputs. -/
def State.view (s : State) (b : Bool) (reads : List HostReadResult) (l : List Input) : State :=
  { s with
    rf := { s.rf with rxpend := b }
    env := { s.env with hostReads := reads, inputs := l } }

/-- What comes of a step, with the state seen so. -/
def Stepped.view (r : Stepped) (b : Bool) (reads : List HostReadResult) (l : List Input) : Stepped :=
  match r with
  | .go k s => .go k (s.view b reads l)
  | .ended s => .ended (s.view b reads l)
  | .wait s => .wait (s.view b reads l)

/-- What comes of an answer, with the state seen so. -/
def Served.view (r : Served) (b : Bool) (reads : List HostReadResult) (l : List Input) : Served :=
  match r with
  | .again s => .again (s.view b reads l)
  | .leave r => .leave (r.view b reads l)

/-- A register change that neither looks at the three nor touches them. -/
def BlindChange (f : State → State) : Prop := ∀ s b reads l, f (s.view b reads l) = (f s).view b reads l

/-- A value of the state that none of the three enters. -/
def BlindValue {α : Type} (v : State → α) : Prop := ∀ s b reads l, v (s.view b reads l) = v s

theorem State.withInputs_eq_view (s : State) (l : List Input) :
    s.withInputs l = s.view s.rf.rxpend s.env.hostReads l := rfl

@[simp] theorem State.view_inputs (s : State) (b : Bool) (reads : List HostReadResult) (l : List Input) :
    (s.view b reads l).env.inputs = l := rfl

@[simp] theorem State.view_busy (s : State) (b : Bool) (reads : List HostReadResult) (l : List Input) :
    (s.view b reads l).seq.busy = s.seq.busy := rfl

@[simp] theorem State.view_view (s : State) (b b' : Bool) (reads reads' : List HostReadResult) (l l' : List Input) :
    (s.view b reads l).view b' reads' l' = s.view b' reads' l' := rfl

theorem State.view_record (s : State) (b : Bool) (reads : List HostReadResult) (l : List Input) (p : Prim)
    (a : Answer) : (s.view b reads l).record p a = (s.record p a).view b reads l := rfl

theorem State.view_withInputs (s : State) (b : Bool) (reads : List HostReadResult) (l l' : List Input) :
    (s.view b reads l).withInputs l' = s.view b reads l' := rfl

/-! ## The two kinds of step -/

/-- A step that decides without asking where `exit` says how, and asks otherwise. -/
def decideOrAsk (exit : State → Option Stepped) (prim : State → Prim) (reply : Answer → State → Served) : MicroStep :=
  fun s => (exit s).getD (serve prim reply s.env.inputs s)

/-- What operation `i` may do to the state in flight `s`; a step never answers that it waits of its own accord. -/
def Allowed (i : Instr) (s : State) : Stepped → Prop :=
  Stepped.Post (fun _ => Change i s) (Concludes i (mayRaise i) s) (fun _ => False)

/-- A step of operation `i` that needs nothing from outside. -/
structure Silent (i : Instr) (m : MicroStep) : Prop where
  allowed : ∀ s, Allowed i s (m s)
  blind : ∀ s b reads l, m (s.view b reads l) = (m s).view b reads l

/-- A step of operation `i` that asks the environment, maybe again and again. -/
structure Asking (i : Instr) (exit : State → Option Stepped) (prim : State → Prim) (reply : Answer → State → Served) :
    Prop where
  exit_allowed : ∀ {s : State} {r : Stepped}, exit s = some r → Allowed i s r
  exit_blind : ∀ s b reads l, exit (s.view b reads l) = (exit s).map fun r => r.view b reads l
  exit_external : ∀ {s : State} {e : External}, s.resetBy e = false → exit s = none → exit (s.external e) = none
  exit_none : i ≠ .rfSend → ∀ s, exit s = none
  exit_again : ∀ {a : Answer} {s t : State}, reply a s = .again t → exit t = none
  call : ∀ s, mayCall i (prim s) = true ∧ (prim s).asks = true
  prim_blind : BlindValue prim
  reply_allowed : ∀ a s,
    (reply a s).Post (Change i s) (fun _ => Change i s) (Concludes i (mayRaise i) s) (fun _ => False)
  reply_blind : ∀ a s b reads l, reply a (s.view b reads l) = (reply a s).view b reads l

/-- `m` is a step operation `i` may have; the flag says whether it asks. -/
inductive Fits (i : Instr) (m : MicroStep) : Bool → Prop
  | silent (h : Silent i m) : Fits i m false
  | asking {exit : State → Option Stepped} {prim : State → Prim} {reply : Answer → State → Served}
      (hm : m = decideOrAsk exit prim reply) (h : Asking i exit prim reply) : Fits i m true

/-- A part of a step that looks at none of the three leaves the inputs. -/
theorem Served.inputs_of_blind {f : State → Served} (hf : ∀ s b reads l, f (s.view b reads l) = (f s).view b reads l)
    {s t : State} (h : f s = .again t) : t.env.inputs = s.env.inputs := by
  have hself : f s = (f s).view s.rf.rxpend s.env.hostReads s.env.inputs := hf s s.rf.rxpend s.env.hostReads s.env.inputs
  rw [h] at hself
  rw [Served.again.inj hself]
  rfl

/-! ## What a step can do -/

theorem Allowed.post {i : Instr} {s t : State} {r : Stepped} (h : Allowed i t r) (ht : Reached i s t) :
    r.Post (fun _ => Reached i s) (Concludes i (mayRaise i) s) (Reached i s) :=
  h.imp (fun _ _ hu => ht.advance hu.toAdvance) (fun _ hu => ht.conclude hu) (fun _ hu => hu.elim)

/-- A step keeps to what its operation may do. -/
theorem Fits.post {i : Instr} {m : MicroStep} {b : Bool} (h : Fits i m b) {s t : State} (ht : Reached i s t) :
    (m t).Post (fun _ => Reached i s) (Concludes i (mayRaise i) s) (Reached i s) := by
  cases h with
  | silent h => exact (h.allowed t).post ht
  | @asking exit prim reply hm h =>
    rw [hm]
    unfold decideOrAsk
    cases hexit : exit t with
    | some r => exact (h.exit_allowed hexit).post ht
    | none =>
      refine serve_post (stable_reached i _ s).toUndisturbed (fun _ hu => hu) (fun {u raw rest} hin hu => ?_) ht
      have hstep : Reached i s ((u.withInputs rest).record (prim u) ((prim u).returns raw)) :=
        hu.advance (change_answer hin (h.call u).1 (h.call u).2).toAdvance
      have hreply := h.reply_allowed ((prim u).returns raw) ((u.withInputs rest).record (prim u) ((prim u).returns raw))
      cases hr : reply ((prim u).returns raw) ((u.withInputs rest).record (prim u) ((prim u).returns raw)) with
      | again v =>
        rw [hr] at hreply
        exact ⟨Served.inputs_of_blind (h.reply_blind _) hr, hstep.advance hreply.toAdvance⟩
      | leave r =>
        rw [hr] at hreply
        exact Allowed.post hreply hstep

/-- So does a list of such steps. -/
theorem runSteps_reached {i : Instr} {ms : List MicroStep} {bs : List Bool} (h : List.Forall₂ (Fits i) ms bs) (k : Nat)
    {s t : State} (ht : Reached i s t) :
    (runSteps ms k t).Post (fun _ => Reached i s) (Concludes i (mayRaise i) s) (Reached i s) := by
  refine runSteps_post (stable_reached i _ s) (fun m hm _ hu => ?_) k ht
  obtain ⟨j, hj, rfl⟩ := List.mem_iff_getElem.mp hm
  exact (List.Forall₂.get h hj (h.length_eq ▸ hj)).post hu

/-! ## Steps that need nothing from outside -/

section
variable {i : Instr}

theorem fits_guardStep {g : State → Option Cause} (hg : BlindValue g)
    (hok : ∀ s c, g s = some c → mayRaise i c) : Fits i (guardStep g) false := by
  refine .silent ⟨fun s => ?_, fun s b reads l => ?_⟩
  · unfold guardStep
    cases h : g s with
    | none => exact Change.refl i s
    | some c => exact ⟨s, Advance.refl i s, .raised c (hok s c h)⟩
  · unfold guardStep
    rw [hg]
    cases g s <;> rfl

theorem fits_needsInit {flag : State → Bool} {u : Byte} (hflag : BlindValue flag)
    (hok : mayRaise i (.notInitialized u)) : Fits i (needsInit flag u) false := by
  refine fits_guardStep (fun s b reads l => by rw [hflag]) fun s c h => ?_
  split at h
  · cases h
  · cases h
    exact hok

theorem fits_act {f : State → State} (hf : BlindChange f) (hchange : ∀ s, Change i s (f s)) : Fits i (act f) false :=
  .silent ⟨fun s => hchange s, fun s b reads l => congrArg (Stepped.go 0) (hf s b reads l)⟩

theorem fits_perform {prim : State → Prim} {f : State → State} (hprim : BlindValue prim) (hf : BlindChange f)
    (hcall : ∀ s, mayCall i (prim s) = true) (hsilent : ∀ s, (prim s).asks = false) (hchange : ∀ s, Change i s (f s)) :
    Fits i (perform prim f) false := by
  refine .silent ⟨fun s => (change_record s _ (hcall s) (hsilent s)).trans (hchange _), fun s b reads l => ?_⟩
  rw [perform_go, hprim, State.view_record, hf]
  rfl

/-- The last step changes nothing that an operation in flight may not change, but for the results. -/
theorem fits_finish {f : State → State} (hf : BlindChange f)
    (hchange : ∀ s, ∃ u r0 r1, Change i s u ∧ f s = { u with host := { u.host with ret0 := r0, ret1 := r1 } }) :
    Fits i (finish f) false := by
  refine .silent ⟨fun s => ?_, fun s b reads l => ?_⟩
  · obtain ⟨u, r0, r1, hu, hresult⟩ := hchange s
    refine ⟨u, hu.toAdvance, ?_⟩
    rw [hresult]
    exact .finished r0 r1
  · rw [finish_ended, hf]
    rfl

/-- A last step that changes no result. -/
theorem fits_finish_of_change {f : State → State} (hf : BlindChange f) (hchange : ∀ s, Change i s (f s)) :
    Fits i (finish f) false :=
  fits_finish hf fun s => ⟨f s, (f s).host.ret0, (f s).host.ret1, hchange s, rfl⟩

/-! ## Steps that ask once -/

theorem ask_eq_decideOrAsk (prim : State → Prim) (k : Answer → State → Stepped) :
    ask prim k = decideOrAsk (fun _ => none) prim fun a s => .leave (k a s) := rfl

theorem fits_ask {prim : State → Prim} {k : Answer → State → Stepped} (hprim : BlindValue prim)
    (hk : ∀ a s b reads l, k a (s.view b reads l) = (k a s).view b reads l)
    (hcall : ∀ s, mayCall i (prim s) = true ∧ (prim s).asks = true) (hallowed : ∀ a s, Allowed i s (k a s)) :
    Fits i (ask prim k) true :=
  .asking (ask_eq_decideOrAsk prim k)
    { exit_allowed := fun h => nomatch h
      exit_blind := fun _ _ _ _ => rfl
      exit_external := fun _ _ => rfl
      exit_none := fun _ _ => rfl
      exit_again := fun h => nomatch h
      call := hcall
      prim_blind := hprim
      reply_allowed := fun a s => hallowed a s
      reply_blind := fun a s b reads l => congrArg Served.leave (hk a s b reads l) }

theorem fits_twAccess {prim : State → Prim} {info : Byte} {f : BitVec 24 → State → State} (hprim : BlindValue prim)
    (hf : ∀ d, BlindChange (f d)) (hcall : ∀ s, mayCall i (prim s) = true ∧ (prim s).asks = true)
    (hok : mayRaise i (.busError info)) (hchange : ∀ d s, Change i s (f d s)) :
    Fits i (twAccess prim info f) true := by
  refine fits_ask hprim (fun a s b reads l => ?_) hcall fun a s => ?_
  · split
    · rw [hf a.data]
      rfl
    · rfl
  · split
    · exact hchange a.data s
    · exact ⟨s, Advance.refl i s, .raised _ hok⟩

theorem fits_spiStep {byte : State → Byte} {f : State → State} (hi : i.isRfc = true) (hbyte : BlindValue byte)
    (hf : BlindChange f) (hchange : ∀ s, Change i s (f s)) : Fits i (spiStep byte f) true :=
  fits_ask (fun s b reads l => by rw [hbyte]) (fun a s b reads l => congrArg (Stepped.go 0) (hf s b reads l))
    (fun s => ⟨hi, rfl⟩) fun a s => hchange s

/-! ## Steps that ask again -/

/-- What the wait loop of SWD does with an answer (R181). -/
def waitAnswer (stay : Bool) (id : Byte) (a : Answer) (s : State) : Served :=
  if a.level ≠ stay then .leave (.go 0 { s with seq := { s.seq with polls := 0 } })
  else if s.cfg.swPollMax = some (s.seq.polls + 1) then
    .leave (.ended ({ s with sw := { s.sw with stat := .timeout } }.raise (.timeout id)))
  else .again { s with seq := { s.seq with polls := s.seq.polls + 1 } }

theorem waitWhile_eq (stay : Bool) (id : Byte) (s : State) :
    waitWhile stay id s = serve (fun t => .pinRead t.pin) (waitAnswer stay id) s.env.inputs s := rfl

/-- The loop goes round short of its bound. -/
theorem waitAnswer_again {stay : Bool} {id : Byte} {a : Answer} {s t : State} (h : waitAnswer stay id a s = .again t) :
    t = { s with seq := { s.seq with polls := s.seq.polls + 1 } } ∧ s.cfg.swPollMax ≠ some (s.seq.polls + 1) := by
  unfold waitAnswer at h
  split at h
  · cases h
  · split at h
    · cases h
    · rename_i hbound
      exact ⟨(Served.again.inj h).symm, hbound⟩

/-- It is over when the level is seen, or at its bound. -/
theorem waitAnswer_leave {stay : Bool} {id : Byte} {a : Answer} {s : State} {r : Stepped}
    (h : waitAnswer stay id a s = .leave r) : r = .go 0 { s with seq := { s.seq with polls := 0 } } ∨
      r = .ended ({ s with sw := { s.sw with stat := .timeout } }.raise (.timeout id)) := by
  unfold waitAnswer at h
  split at h
  · exact .inl (Served.leave.inj h).symm
  · split at h
    · exact .inr (Served.leave.inj h).symm
    · cases h

theorem waitAnswer_blind (stay : Bool) (id : Byte) (a : Answer) (s : State) (b : Bool) (reads : List HostReadResult)
    (l : List Input) : waitAnswer stay id a (s.view b reads l) = (waitAnswer stay id a s).view b reads l := by
  unfold waitAnswer
  have hcfg : (s.view b reads l).cfg = s.cfg := rfl
  have hpolls : (s.view b reads l).seq.polls = s.seq.polls := rfl
  rw [hcfg, hpolls]
  split
  · rfl
  · split <;> rfl

/-- R181: the wait loop of SWD. -/
theorem fits_waitWhile (hi : i.isSwd = true) (stay : Bool) (id : Byte) (hok : mayRaise i (.timeout id)) :
    Fits i (waitWhile stay id) true := by
  refine .asking (exit := fun _ => none) (reply := waitAnswer stay id) rfl
    { exit_allowed := fun h => nomatch h
      exit_blind := fun _ _ _ _ => rfl
      exit_external := fun _ _ => rfl
      exit_none := fun _ _ => rfl
      exit_again := fun _ => rfl
      call := fun s => ⟨hi, rfl⟩
      prim_blind := fun _ _ _ _ => rfl
      reply_allowed := fun a s => ?_
      reply_blind := waitAnswer_blind stay id }
  cases h : waitAnswer stay id a s with
  | again t =>
    rw [(waitAnswer_again h).1]
    exact change_seq s rfl rfl rfl rfl
  | leave r =>
    rcases waitAnswer_leave h with rfl | rfl
    · exact change_seq s rfl rfl rfl rfl
    · exact ⟨{ s with sw := { s.sw with stat := .timeout } },
        (change_sw (w := { s.sw with stat := .timeout }) s hi fun h => h).toAdvance, .raised _ hok⟩

/-- Where the poll stands at its bound it asks nothing (R262 W3). -/
def pollExit (s : State) : Option Stepped :=
  if s.seq.midRead = false ∧ s.cfg.rf.pollMax = some s.seq.polls then
    some (.go afterTxDone.length { s with seq := { s.seq with polls := 0 } })
  else none

theorem waitTxDone_eq_decideOrAsk : waitTxDone = decideOrAsk pollExit pollPrim pollAnswer := by
  funext s
  unfold waitTxDone decideOrAsk pollExit
  split <;> rfl

theorem pollExit_eq_none_iff {s : State} :
    pollExit s = none ↔ ¬ (s.seq.midRead = false ∧ s.cfg.rf.pollMax = some s.seq.polls) := by
  unfold pollExit
  split <;> simp [*]

/-- The poll goes round short of its bound, or in the middle of a read. -/
theorem pollAnswer_again {a : Answer} {s t : State} (h : pollAnswer a s = .again t) :
    (∃ mid n, t = { s with seq := { s.seq with midRead := mid, polls := n } }) ∧ pollExit t = none := by
  unfold pollAnswer at h
  split at h
  · cases h
    exact ⟨⟨true, s.seq.polls, rfl⟩, pollExit_eq_none_iff.mpr fun h => Bool.noConfusion h.1⟩
  · split at h
    · cases h
    · split at h
      · cases h
      · rename_i hbound
        cases h
        exact ⟨⟨false, _, rfl⟩, pollExit_eq_none_iff.mpr fun h => hbound h.2⟩

/-- It is over when the flag is seen, or at its bound. -/
theorem pollAnswer_leave {a : Answer} {s : State} {r : Stepped} (h : pollAnswer a s = .leave r) :
    ∃ k, (k = 0 ∨ k = afterTxDone.length) ∧ r = .go k { s with seq := { s.seq with midRead := false, polls := 0 } } := by
  unfold pollAnswer at h
  split at h
  · cases h
  · split at h
    · cases h
      exact ⟨_, .inl rfl, rfl⟩
    · split at h
      · cases h
        exact ⟨_, .inr rfl, rfl⟩
      · cases h

theorem pollAnswer_blind (a : Answer) (s : State) (b : Bool) (reads : List HostReadResult) (l : List Input) :
    pollAnswer a (s.view b reads l) = (pollAnswer a s).view b reads l := by
  unfold pollAnswer
  have hmid : (s.view b reads l).seq.midRead = s.seq.midRead := rfl
  have hcfg : (s.view b reads l).cfg = s.cfg := rfl
  have hpolls : (s.view b reads l).seq.polls = s.seq.polls := rfl
  rw [hmid, hcfg, hpolls]
  split
  · rfl
  · split
    · rfl
    · split <;> rfl

/-- R262: the poll of `RF.SEND`. -/
theorem fits_waitTxDone : Fits .rfSend waitTxDone true := by
  refine .asking waitTxDone_eq_decideOrAsk
    { exit_allowed := fun {s r} h => ?_
      exit_blind := fun s b reads l => ?_
      exit_external := fun {s e} hr h => ?_
      exit_none := fun h => absurd rfl h
      exit_again := fun h => (pollAnswer_again h).2
      call := fun s => ?_
      prim_blind := fun _ _ _ _ => rfl
      reply_allowed := fun a s => ?_
      reply_blind := pollAnswer_blind }
  · unfold pollExit at h
    split at h
    · cases h
      exact change_seq s rfl rfl rfl rfl
    · cases h
  · unfold pollExit
    have hmid : (s.view b reads l).seq.midRead = s.seq.midRead := rfl
    have hcfg : (s.view b reads l).cfg = s.cfg := rfl
    have hpolls : (s.view b reads l).seq.polls = s.seq.polls := rfl
    rw [hmid, hcfg, hpolls]
    split <;> rfl
  · obtain ⟨hcfg, -, -, -, -, hseq, -⟩ := external_frame s e hr
    rw [pollExit_eq_none_iff] at h ⊢
    rwa [hcfg, hseq]
  · unfold pollPrim
    split <;> exact ⟨rfl, rfl⟩
  · cases h : pollAnswer a s with
    | again t =>
      obtain ⟨⟨mid, n, rfl⟩, -⟩ := pollAnswer_again h
      exact change_seq s rfl rfl rfl rfl
    | leave r =>
      obtain ⟨k, -, rfl⟩ := pollAnswer_leave h
      exact change_seq s rfl rfl rfl rfl

end

end Sys2Proof.Machine
end

section
/-! PROOFS. The programs of the thirteen operations (30_encoding.md R100): each is a list of steps of the form of the
section before, and which of them ask is given by a list of flags. -/

namespace Sys2Proof.Machine

/-! ## Lists of flags -/

/-- `n` steps that ask. -/
abbrev allAsk (n : Nat) : List Bool := List.replicate n true

section
variable {i : Instr}

theorem fits_allAsk {ms : List MicroStep} {n : Nat} (hn : ms.length = n) (h : ∀ m ∈ ms, Fits i m true) :
    List.Forall₂ (Fits i) ms (allAsk n) := by
  subst hn
  induction ms with
  | nil => exact .nil
  | cons m ms ih =>
    exact .cons (h m List.mem_cons_self) (ih fun m' hm' => h m' (List.mem_cons_of_mem m hm'))

theorem fits_append {ms ms' : List MicroStep} {bs bs' : List Bool} (h : List.Forall₂ (Fits i) ms bs)
    (h' : List.Forall₂ (Fits i) ms' bs') : List.Forall₂ (Fits i) (ms ++ ms') (bs ++ bs') :=
  List.rel_append h h'

theorem fits_pair {m m' : MicroStep} {b b' : Bool} (h : Fits i m b) (h' : Fits i m' b') :
    List.Forall₂ (Fits i) [m, m'] [b, b'] := .cons h (.cons h' .nil)

theorem fits_single {m : MicroStep} {b : Bool} (h : Fits i m b) : List.Forall₂ (Fits i) [m] [b] := .cons h .nil

end

/-! ## PTC -/

section
variable {i : Instr}

/-- The check of an operand that has one upper bound. -/
theorem fits_arg0Guard (hi : Nat) (hok : mayRaise i (.illegalOperand 0)) :
    Fits i (guardStep fun s => arg0Above s.operands hi) false := by
  refine fits_guardStep (fun _ _ _ _ => rfl) fun s c h => ?_
  unfold arg0Above at h
  split at h
  · cases h
    exact hok
  · cases h

theorem fits_delayMs {n : State → Nat} (hn : BlindValue n) (hcall : ∀ k, mayCall i (.delayMs k) = true) :
    Fits i (delayMsStep n) false :=
  fits_perform (fun s b reads l => by rw [hn]) (fun _ _ _ _ => rfl) (fun s => hcall (n s)) (fun _ => rfl)
    (Change.refl i)

theorem fits_delayUs (n : Nat) (hcall : mayCall i (.delayUs n) = true) : Fits i (delayUsStep n) false :=
  fits_perform (fun _ _ _ _ => rfl) (fun _ _ _ _ => rfl) (fun _ => hcall) (fun _ => rfl) (Change.refl i)

/-- An access of PTC that stores nothing. -/
theorem fits_ptCommand {value : PtConfig → Byte} {info : Byte} (hi : i.isPtc = true)
    (hok : mayRaise i (.busError info)) :
    Fits i (twAccess (fun s => .twWrite8 s.pt.addr s.cfg.pt.regCtrl (value s.cfg.pt)) info fun _ s => s) true :=
  fits_twAccess (fun _ _ _ _ => rfl) (fun _ _ _ _ _ => rfl) (fun s => ⟨by simp [mayCall, hi], rfl⟩) hok
    fun _ s => Change.refl i s

theorem fits_readCoefficient (n : Nat) : Fits .ptInit (readCoefficient n) true := by
  refine fits_twAccess (fun _ _ _ _ => rfl) (fun _ _ _ _ _ => rfl) (fun s => ?_) rfl fun d s =>
    change_pt s rfl fun _ => id
  split <;> exact ⟨rfl, rfl⟩

theorem fits_ptInit : List.Forall₂ (Fits .ptInit) ptInitSteps ([false, false] ++ allAsk 11 ++ [false]) := by
  refine fits_append (fits_append (fits_pair (fits_arg0Guard 0x7F rfl) (fits_act (fun _ _ _ _ => rfl) fun s =>
    change_pt s rfl fun _ => id)) (fits_allAsk (by simp) fun m hm => ?_))
    (fits_single (fits_finish_of_change (fun _ _ _ _ => rfl) fun s => change_pt s rfl fun _ => id))
  obtain ⟨n, -, rfl⟩ := List.mem_map.mp hm
  exact fits_readCoefficient n

theorem fits_measureT (hi : i.isPtc = true) (h11 : mayRaise i (.busError 11)) (h12 : mayRaise i (.busError 12)) :
    List.Forall₂ (Fits i) measureT [true, false, true, false] := by
  refine .cons (fits_ptCommand hi h11) (.cons (fits_delayMs (fun _ _ _ _ => rfl) fun k => by simp [mayCall, hi]) ?_)
  refine fits_pair (fits_twAccess (fun _ _ _ _ => rfl) (fun _ _ _ _ _ => rfl) (fun s => ⟨hi, rfl⟩) h12 fun d s =>
    change_pt s hi fun _ => id) ?_
  exact fits_act (fun _ _ _ _ => rfl) fun s => change_pt s hi fun _ => id

theorem fits_ptReadT :
    List.Forall₂ (Fits .ptReadT) ptReadTSteps ([false] ++ [true, false, true, false] ++ [false]) :=
  fits_append (fits_append (fits_single (fits_needsInit (fun _ _ _ _ => rfl) rfl)) (fits_measureT rfl rfl rfl))
    (fits_single (fits_finish (fun _ _ _ _ => rfl) fun s => ⟨s, _, _, Change.refl _ s, rfl⟩))

/-- A 24-bit sample shifted by 8 has 16 bits (10_state.md R28). -/
theorem shifted_sample_lt (d : BitVec 24) : ((d >>> 8).setWidth 19 : BitVec 19).toNat < 2 ^ 16 := by
  have hd := d.isLt
  rw [BitVec.toNat_setWidth, BitVec.toNat_ushiftRight, Nat.shiftRight_eq_div_pow]
  omega

theorem fits_ptReadP : List.Forall₂ (Fits .ptReadP) ptReadPSteps
    ([false] ++ [true, false, true, false] ++ [true, false, true, false]) := by
  refine fits_append (fits_append (fits_single (fits_needsInit (fun _ _ _ _ => rfl) rfl)) (fits_measureT rfl rfl rfl))
    (.cons (fits_ptCommand rfl rfl) (.cons (fits_delayMs (fun _ _ _ _ => rfl) fun _ => rfl) (fits_pair ?_ ?_)))
  · refine fits_twAccess (fun _ _ _ _ => rfl) (fun _ _ _ _ _ => rfl) (fun s => ⟨rfl, rfl⟩) rfl fun d s =>
      change_pt s rfl fun hshift _ => ?_
    rw [hshift]
    exact shifted_sample_lt d
  · exact fits_finish (fun _ _ _ _ => rfl) fun s => ⟨s, _, _, Change.refl _ s, rfl⟩

end

/-! ## SWD -/

/-- S14 and S15 fill the cache when they mark it filled. -/
theorem change_decodeFrame {i : Instr} (hi : i.isSwd = true) (s : State) : Change i s (decodeFrame s) := by
  unfold decodeFrame
  dsimp only
  split
  · exact change_sw s hi fun _ h => Bool.noConfusion h
  · exact change_sw s hi fun h => h

theorem decodeFrame_blind : BlindChange decodeFrame := by
  intro s b reads l
  rw [decodeFrame_eq, decodeFrame_eq]
  rfl

section
variable {i : Instr} (hi : i.isSwd = true)
include hi

/-- Which steps of a bit ask. -/
abbrev bitFlags : List Bool := [true, false, true, true]

/-- Which steps of a single-wire read ask. -/
abbrev readFlags : List Bool :=
  [false] ++ ([false, false, false, false, true] ++
    ([true, true, false] ++ (List.range 40).flatMap (fun _ => bitFlags) ++ [false])) ++ [false]

variable (htimeout : ∀ id, mayRaise i (.timeout id))
include htimeout

theorem fits_sampleBit (n : Nat) : List.Forall₂ (Fits i) (sampleBit n) bitFlags := by
  refine .cons (fits_waitWhile hi false _ (htimeout _)) (.cons (fits_delayUs _ hi)
    (fits_pair ?_ (fits_waitWhile hi true _ (htimeout _))))
  exact fits_ask (fun _ _ _ _ => rfl) (fun _ _ _ _ _ => rfl) (fun s => ⟨hi, rfl⟩) fun a s =>
    change_seq s rfl rfl rfl rfl

theorem fits_swAnswered : List.Forall₂ (Fits i) swAnswered
    ([true, true, false] ++ (List.range 40).flatMap (fun _ => bitFlags) ++ [false]) := by
  refine fits_append (fits_append (.cons (fits_waitWhile hi false _ (htimeout _)) (fits_pair
    (fits_waitWhile hi true _ (htimeout _)) (fits_act (fun _ _ _ _ => rfl) fun s => change_seq s rfl rfl rfl rfl))) ?_)
    (fits_single (fits_act decodeFrame_blind (change_decodeFrame hi)))
  exact List.rel_flatMap (R := Eq) (List.forall₂_same.mpr fun _ _ => rfl)
    fun n m _ => fits_sampleBit hi htimeout n

theorem fits_swRead : List.Forall₂ (Fits i) swRead ([false, false, false, false, true] ++
    ([true, true, false] ++ (List.range 40).flatMap (fun _ => bitFlags) ++ [false])) := by
  refine fits_append ?_ (fits_swAnswered hi htimeout)
  refine .cons (fits_perform (fun _ _ _ _ => rfl) (fun _ _ _ _ => rfl) (fun _ => by simp [mayCall, hi]) (fun _ => rfl)
    fun s => change_seq s rfl rfl rfl rfl) ?_
  refine .cons (fits_delayMs (fun _ _ _ _ => rfl) fun _ => by simp [mayCall, hi]) ?_
  refine .cons (fits_perform (fun _ _ _ _ => rfl) (fun _ _ _ _ => rfl) (fun _ => hi) (fun _ => rfl)
    fun s => change_seq s rfl rfl rfl rfl) ?_
  refine fits_pair (fits_delayUs _ hi) (fits_ask (fun _ _ _ _ => rfl) (fun a s b reads l => ?_)
    (fun s => ⟨hi, rfl⟩) fun a s => ?_)
  · split <;> rfl
  · split
    · exact change_sw s hi fun h => h
    · exact Change.refl i s

theorem fits_readSteps (value : Swd → Word) (hoperand : mayRaise i (.illegalOperand 0)) :
    List.Forall₂ (Fits i) (readSteps value) readFlags :=
  fits_append (fits_append (fits_single (fits_arg0Guard 255 hoperand)) (fits_swRead hi htimeout))
    (fits_single (fits_finish (fun _ _ _ _ => rfl) fun s => ⟨s, _, _, Change.refl _ s, rfl⟩))

end

theorem fits_swSetCal : List.Forall₂ (Fits .swSetCal) swSetCalSteps [false] :=
  fits_single (fits_finish_of_change (fun _ _ _ _ => rfl) fun s => change_sw s rfl fun h => h)

/-! ## FTR -/

section
variable {i : Instr} (hi : i.isFtr = true) (hbus : ∀ k, mayRaise i (.busError k))
include hi hbus

theorem fits_dspCmd {byte : State → Byte} (hbyte : BlindValue byte) (k : Byte) : Fits i (dspCmd byte k) true :=
  fits_twAccess (fun s b reads l => by rw [hbyte]; rfl) (fun _ _ _ _ _ => rfl)
    (fun s => ⟨by simp [mayCall, hi], rfl⟩) (hbus k) fun _ s => Change.refl i s

theorem fits_flushSteps : List.Forall₂ (Fits i) flushSteps (allAsk 7) := by
  have hcmd {byte : State → Byte} (hbyte : BlindValue byte) (k : Byte) := fits_dspCmd hi hbus hbyte k
  exact .cons (hcmd (fun _ _ _ _ => rfl) _) <| .cons (hcmd (fun _ _ _ _ => rfl) _) <|
    .cons (hcmd (fun _ _ _ _ => rfl) _) <| .cons (hcmd (fun _ _ _ _ => rfl) _) <|
    .cons (hcmd (fun _ _ _ _ => rfl) _) <| .cons (hcmd (fun _ _ _ _ => rfl) _) <|
    fits_single (fits_twAccess (fun _ _ _ _ => rfl) (fun _ _ _ _ _ => rfl) (fun s => ⟨hi, rfl⟩) (hbus _)
      fun _ s => Change.refl i s)

theorem fits_clearAndFlush : List.Forall₂ (Fits i) clearAndFlush (false :: allAsk 7) :=
  .cons (fits_act (fun _ _ _ _ => rfl) fun s => change_dsp s hi fun h => Memory.zeroFill_rising h _)
    (fits_flushSteps hi hbus)

theorem fits_textSteps (hoperand : mayRaise i (.illegalOperand 4)) (hglyph : ∀ c, mayRaise i (.unsupportedGlyph c)) :
    List.Forall₂ (Fits i) textSteps ([false, false, false] ++ allAsk 7 ++ [false]) := by
  refine fits_append (fits_append (.cons (fits_guardStep (fun _ _ _ _ => rfl) fun s c h => ?_) (fits_pair
    (fits_guardStep (fun _ _ _ _ => rfl) fun s c h => ?_)
    (fits_act (fun _ _ _ _ => rfl) fun s => change_dsp s hi fun h => blit_rising _ h _ _)))
    (fits_flushSteps hi hbus)) (fits_single (fits_finish_of_change (fun _ _ _ _ => rfl) (Change.refl i)))
  · unfold State.textFits at h
    split at h
    · cases h
      exact hoperand
    · cases h
  · obtain ⟨code, -, rfl⟩ := Option.map_eq_some_iff.mp h
    exact hglyph code

end

/-- The operand checks of `DSP.INIT` raise `IllegalOperand` of 0, 1 or 2. -/
theorem displayOperands_mayRaise {o : Operands} {c : Cause} (h : displayOperands o = some c) :
    mayRaise .dspInit c := by
  unfold displayOperands at h
  split at h
  · cases h; rfl
  · split at h
    · cases h; rfl
    · split at h
      · cases h; rfl
      · cases h

theorem fits_dspInit (c : DspConfig) : List.Forall₂ (Fits .dspInit) (dspInitSteps c)
    ([false, false] ++ allAsk c.initList.length ++ (false :: allAsk 7) ++ [false]) := by
  refine fits_append (fits_append (fits_append (fits_pair
    (fits_guardStep (fun _ _ _ _ => rfl) fun s c h => displayOperands_mayRaise h)
    (fits_act (fun _ _ _ _ => rfl) fun s => change_dsp s rfl id))
    (fits_allAsk (List.length_map ..) fun m hm => ?_)) (fits_clearAndFlush rfl fun _ => rfl))
    (fits_single (fits_finish_of_change (fun _ _ _ _ => rfl) fun s => change_dsp s rfl id))
  obtain ⟨e, -, rfl⟩ := List.mem_map.mp hm
  exact fits_dspCmd (i := .dspInit) rfl (fun _ => rfl) (fun _ _ _ _ => rfl) e.info

theorem fits_dspClear :
    List.Forall₂ (Fits .dspClear) dspClearSteps ([false] ++ (false :: allAsk 7) ++ [false]) :=
  fits_append (fits_append (fits_single (fits_needsInit (fun _ _ _ _ => rfl) rfl))
    (fits_clearAndFlush rfl fun _ => rfl))
    (fits_single (fits_finish_of_change (fun _ _ _ _ => rfl) (Change.refl _)))

theorem fits_dspShowStr : List.Forall₂ (Fits .dspShowStr) dspShowStrSteps
    (false :: ([false, false, false] ++ allAsk 7 ++ [false])) :=
  .cons (fits_needsInit (fun _ _ _ _ => rfl) rfl)
    (fits_textSteps (i := .dspShowStr) rfl (fun _ => rfl) rfl fun _ => rfl)

theorem fits_dspShowNum : List.Forall₂ (Fits .dspShowNum) dspShowNumSteps
    (false :: false :: ([false, false, false] ++ allAsk 7 ++ [false])) :=
  .cons (fits_needsInit (fun _ _ _ _ => rfl) rfl) (.cons (fits_act (fun _ _ _ _ => rfl) change_formatNumber)
    (fits_textSteps (i := .dspShowNum) rfl (fun _ => rfl) rfl fun _ => rfl))

/-! ## RFC -/

/-- Steps that ask one after the other. -/
theorem mem_append_fits {i : Instr} {a b : List MicroStep} (ha : ∀ m ∈ a, Fits i m true) (hb : ∀ m ∈ b, Fits i m true) :
    ∀ m ∈ a ++ b, Fits i m true :=
  fun m hm => (List.mem_append.mp hm).elim (ha m) (hb m)

section
variable {i : Instr} (hi : i.isRfc = true)
include hi

theorem fits_rfWrite {reg : State → RfReg} {v : State → Byte} {f : State → State} (hreg : BlindValue reg)
    (hv : BlindValue v) (hf : BlindChange f) (hchange : ∀ s, Change i s (f s)) :
    ∀ m ∈ rfWrite reg v f, Fits i m true := by
  refine List.forall_mem_cons.mpr ⟨?_, List.forall_mem_singleton.mpr (fits_spiStep hi hv hf hchange)⟩
  exact fits_spiStep hi (fun s b reads l => by rw [hreg]) (fun _ _ _ _ => rfl) (Change.refl i)

/-- A register write that changes nothing else. -/
theorem fits_rfWrite_id {reg : State → RfReg} {v : State → Byte} (hreg : BlindValue reg) (hv : BlindValue v) :
    ∀ m ∈ rfWrite reg v id, Fits i m true :=
  fits_rfWrite hi hreg hv (fun _ _ _ _ => rfl) (Change.refl i)

theorem fits_setMode (mode : RfMode) : ∀ m ∈ setMode mode, Fits i m true :=
  fits_rfWrite hi (fun _ _ _ _ => rfl) (fun _ _ _ _ => rfl) (fun _ _ _ _ => rfl)
    fun s => change_rf s hi id

theorem fits_rfWriteAll (l : List (RfReg × Byte)) : ∀ m ∈ rfWriteAll l, Fits i m true := by
  intro m hm
  obtain ⟨rv, -, hm⟩ := List.mem_flatMap.mp hm
  exact fits_rfWrite_id hi (fun _ _ _ _ => rfl) (fun _ _ _ _ => rfl) m hm

theorem fits_configureSteps (c : RfConfig) : ∀ m ∈ configureSteps c, Fits i m true := by
  have hwrite {reg : State → RfReg} {v : State → Byte} (hreg : BlindValue reg) (hv : BlindValue v) :=
    fits_rfWrite_id hi hreg hv
  have happend {a b : List MicroStep} := mem_append_fits (i := i) (a := a) (b := b)
  exact happend (happend (happend (happend (happend (happend (happend (hwrite (fun _ _ _ _ => rfl) fun _ _ _ _ => rfl)
    (hwrite (fun _ _ _ _ => rfl) fun _ _ _ _ => rfl)) (hwrite (fun _ _ _ _ => rfl) fun _ _ _ _ => rfl))
    (fits_rfWriteAll hi _)) (hwrite (fun _ _ _ _ => rfl) fun _ _ _ _ => rfl)) (fits_rfWriteAll hi _))
    (hwrite (fun _ _ _ _ => rfl) fun _ _ _ _ => rfl)) (fits_setMode hi _)

theorem fits_packetSteps (payload : List Byte) : ∀ m ∈ packetSteps payload, Fits i m true := by
  have hwrite {reg : State → RfReg} {v : State → Byte} (hreg : BlindValue reg) (hv : BlindValue v) :=
    fits_rfWrite_id hi hreg hv
  have happend {a b : List MicroStep} := mem_append_fits (i := i) (a := a) (b := b)
  refine happend (happend (happend (happend (happend (happend (fits_setMode hi _)
    (hwrite (fun _ _ _ _ => rfl) fun _ _ _ _ => rfl)) (hwrite (fun _ _ _ _ => rfl) fun _ _ _ _ => rfl))
    (hwrite (fun _ _ _ _ => rfl) fun _ _ _ _ => rfl)) (hwrite (fun _ _ _ _ => rfl) fun _ _ _ _ => rfl))
    fun m hm => ?_) (fits_setMode hi _)
  obtain ⟨b, -, hm⟩ := List.mem_flatMap.mp hm
  exact hwrite (fun _ _ _ _ => rfl) (fun _ _ _ _ => rfl) m hm

end

theorem length_rfWriteAll (l : List (RfReg × Byte)) : (rfWriteAll l).length = 2 * l.length := by
  simp [rfWriteAll, rfWrite, Nat.mul_comm]

theorem length_configureSteps (c : RfConfig) :
    (configureSteps c).length = 12 + 2 * (c.modemWrites.length + c.preambleWrites.length) := by
  simp only [configureSteps, setMode, rfWrite, List.length_append, length_rfWriteAll, List.length_cons,
    List.length_nil]
  omega

theorem length_packetSteps (payload : List Byte) : (packetSteps payload).length = 12 + 2 * payload.length := by
  simp [packetSteps, setMode, rfWrite]
  omega

theorem fits_rfInit (c : RfConfig) : List.Forall₂ (Fits .rfInit) (rfInitSteps c)
    (allAsk 2 ++ [false, false] ++ allAsk (12 + 2 * (c.modemWrites.length + c.preambleWrites.length)) ++
      [false, false]) := by
  rw [rfInitSteps_eq]
  simp only [List.append_assoc, List.cons_append, List.nil_append]
  refine fits_append (fits_allAsk rfl (fits_setMode rfl _)) (.cons (fits_delayMs (fun _ _ _ _ => rfl) fun _ => rfl)
    (.cons (fits_act (fun _ _ _ _ => rfl) fun s => change_rf s rfl id)
    (fits_append (fits_allAsk (length_configureSteps c) (fits_configureSteps rfl c)) ?_)))
  exact fits_pair (fits_delayMs (fun _ _ _ _ => rfl) fun _ => rfl)
    (fits_finish_of_change (fun _ _ _ _ => rfl) fun s => change_rf s rfl id)

theorem sendOperands_mayRaise {o : Operands} {c : Cause} (h : sendOperands o = some c) : mayRaise .rfSend c := by
  unfold sendOperands at h
  split at h
  · cases h; rfl
  · split at h
    · cases h; rfl
    · cases h

theorem fits_rfSend (payload : List Byte) : List.Forall₂ (Fits .rfSend) (rfSendSteps payload)
    ([false, false] ++ allAsk (17 + 2 * payload.length) ++ [false] ++ allAsk 2 ++ [false]) := by
  have hflags : [false, false] ++ allAsk (17 + 2 * payload.length) ++ [false] ++ allAsk 2 ++ [false] =
      false :: false :: (allAsk (12 + 2 * payload.length) ++ (true :: ((allAsk 4 ++ [false]) ++
        (allAsk 2 ++ [false])))) := by
    have hcount : 17 + 2 * payload.length = 12 + 2 * payload.length + (1 + 4) := by omega
    simp only [allAsk, hcount, List.replicate_add]
    simp
  rw [rfSendSteps_eq, hflags]
  refine .cons (fits_guardStep (fun _ _ _ _ => rfl) fun s c h => sendOperands_mayRaise h)
    (.cons (fits_needsInit (fun _ _ _ _ => rfl) rfl)
    (fits_append (fits_allAsk (length_packetSteps payload) (fits_packetSteps rfl payload))
    (.cons fits_waitTxDone (fits_append (fits_append (fits_allAsk rfl (mem_append_fits (fits_rfWrite_id rfl
      (fun _ _ _ _ => rfl) fun _ _ _ _ => rfl) (fits_setMode rfl _)))
      (fits_single (fits_finish_of_change (fun _ _ _ _ => rfl) (Change.refl _))))
    (fits_append (fits_allAsk rfl (fits_setMode rfl _)) (fits_single (fits_guardStep (fun _ _ _ _ => rfl)
      fun s c h => ?_)))))))
  cases h
  rfl

theorem fits_rfOnRecv : List.Forall₂ (Fits .rfOnRecv) rfOnRecvSteps [false] :=
  fits_single (fits_finish_of_change (fun _ _ _ _ => rfl) fun s => change_rf s rfl fun _ _ => rfl)

/-! ## All operations -/

/-- The steps of operation `i`, as it finds the state. -/
def programOf (i : Instr) (s : State) : List MicroStep :=
  match i with
  | .ptInit => ptInitSteps
  | .ptReadT => ptReadTSteps
  | .ptReadP => ptReadPSteps
  | .swReadT => swReadTSteps
  | .swReadH => swReadHSteps
  | .swSetCal => swSetCalSteps
  | .dspInit => dspInitSteps s.cfg.dsp
  | .dspClear => dspClearSteps
  | .dspShowStr => dspShowStrSteps
  | .dspShowNum => dspShowNumSteps
  | .rfInit => rfInitSteps s.cfg.rf
  | .rfSend => rfSendSteps s.text
  | .rfOnRecv => rfOnRecvSteps

/-- Which of them ask. -/
def askFlags (i : Instr) (s : State) : List Bool :=
  match i with
  | .ptInit => [false, false] ++ allAsk 11 ++ [false]
  | .ptReadT => [false] ++ [true, false, true, false] ++ [false]
  | .ptReadP => [false] ++ [true, false, true, false] ++ [true, false, true, false]
  | .swReadT => readFlags
  | .swReadH => readFlags
  | .swSetCal => [false]
  | .dspInit => [false, false] ++ allAsk s.cfg.dsp.initList.length ++ (false :: allAsk 7) ++ [false]
  | .dspClear => [false] ++ (false :: allAsk 7) ++ [false]
  | .dspShowStr => false :: ([false, false, false] ++ allAsk 7 ++ [false])
  | .dspShowNum => false :: false :: ([false, false, false] ++ allAsk 7 ++ [false])
  | .rfInit =>
    allAsk 2 ++ [false, false] ++ allAsk (12 + 2 * (s.cfg.rf.modemWrites.length + s.cfg.rf.preambleWrites.length)) ++
      [false, false]
  | .rfSend => [false, false] ++ allAsk (17 + 2 * s.host.len.toNat) ++ [false] ++ allAsk 2 ++ [false]
  | .rfOnRecv => [false]

theorem exec_eq_launch (i : Instr) (s : State) : exec i s = .next (s.launch (opcodeOf i) (programOf i)) := by
  cases i <;> rfl

theorem programOf_fits (i : Instr) (s : State) : List.Forall₂ (Fits i) (programOf i s) (askFlags i s) := by
  cases i with
  | ptInit => exact fits_ptInit
  | ptReadT => exact fits_ptReadT
  | ptReadP => exact fits_ptReadP
  | swReadT => exact fits_readSteps (i := .swReadT) rfl (fun _ => rfl) Swd.temperature rfl
  | swReadH => exact fits_readSteps (i := .swReadH) rfl (fun _ => rfl) Swd.humidity rfl
  | swSetCal => exact fits_swSetCal
  | dspInit => exact fits_dspInit s.cfg.dsp
  | dspClear => exact fits_dspClear
  | dspShowStr => exact fits_dspShowStr
  | dspShowNum => exact fits_dspShowNum
  | rfInit => exact fits_rfInit s.cfg.rf
  | rfSend =>
    rw [askFlags, ← text_length]
    exact fits_rfSend s.text
  | rfOnRecv => exact fits_rfOnRecv

end Sys2Proof.Machine
end

section
/-! PROOFS. What an operation leaves (60_exceptions.md R296, R303, R304): it is in flight, or it has been over in one of
three ways, from a state in flight that its unit and the outside may have changed; and what that says of the causes,
the results, the other units, the events, the configuration and the canonical form. -/

namespace Sys2Proof.Machine

/-! ## The state an operation runs from -/

/-- The operation in flight, or the state in which operation `opc` starts. -/
def State.underway (s : State) (opc : Byte) : State := if s.seq.busy then s else s.start opc

/-- Starting an operation writes the sequencer only. -/
theorem underway_eq (s : State) (opc : Byte) :
    ∃ q : Seq, s.underway opc = { s with seq := q } ∧ q.busy = true ∧ q.cause = s.seq.cause := by
  unfold State.underway
  split
  · rename_i hbusy
    exact ⟨s.seq, rfl, hbusy, rfl⟩
  · exact ⟨_, rfl, rfl, rfl⟩

theorem underway_of_busy {s : State} (opc : Byte) (h : s.seq.busy = true) : s.underway opc = s := if_pos h

theorem underway_of_idle {s : State} (opc : Byte) (h : s.idle) : s.underway opc = s.start opc :=
  if_neg (by rw [h]; exact Bool.false_ne_true)

theorem launch_eq (s : State) (opc : Byte) (program : State → List MicroStep) :
    s.launch opc program = (runSteps ((program (s.underway opc)).drop ((s.underway opc).seq.phase - 1)) 0
      (s.underway opc)).state := rfl

theorem underway_busy (s : State) (opc : Byte) : (s.underway opc).seq.busy = true := by
  obtain ⟨q, hq, hbusy, -⟩ := underway_eq s opc
  rw [hq]
  exact hbusy

theorem underway_orderly {s : State} (opc : Byte) (h : s.Orderly) : (s.underway opc).Orderly := by
  obtain ⟨q, hq, -, hcause⟩ := underway_eq s opc
  rw [hq]
  exact ⟨h.buf, h.fb, hcause ▸ h.cause, h.up, h.pending, h.cache⟩

/-! ## The outcomes -/

/-- A list of steps that has come to its end leaves a state from which the operation is done. -/
theorem reached_or_concludes {i : Instr} {ok : Cause → Prop} {s : State} {r : Stepped}
    (h : r.Post (fun _ => Reached i s) (Concludes i ok s) (Reached i s)) :
    Reached i s r.state ∨ Concludes i ok s r.state := by
  cases r with
  | go k t => exact .inr ⟨t, h.2, .finished t.host.ret0 t.host.ret1⟩
  | ended t => exact .inr h
  | wait t => exact .inl h

/-- An operation waits, or it is over. -/
theorem exec_cases {i : Instr} {s t : State} (h : exec i s = .next t) :
    Reached i (s.underway (opcodeOf i)) t ∨ Concludes i (mayRaise i) (s.underway (opcodeOf i)) t := by
  rw [exec_eq_launch, launch_eq] at h
  rw [← Host.Outcome.next.inj h]
  exact reached_or_concludes (runSteps_reached (List.forall₂_drop _ (programOf_fits i _)) 0
    ⟨underway_busy s _, Advance.refl i _⟩)

/-- An illegal command is over at once, unless nothing of it was left. -/
theorem illegalCommand_cases (i : Instr) (s : State) (low : Byte) :
    Reached i (s.underway low) (s.illegalCommand low) ∨
      Concludes i (fun _ => True) (s.underway low) (s.illegalCommand low) := by
  rw [State.illegalCommand, launch_eq]
  refine reached_or_concludes (runSteps_post (stable_reached i _ _) (fun m hm t ht => ?_) 0
    ⟨underway_busy s _, Advance.refl i _⟩)
  obtain rfl := List.mem_singleton.mp (List.mem_of_mem_drop hm)
  exact ht.conclude ⟨t, Advance.refl i t, .raised _ trivial⟩

/-! ## The end -/

/-- A reset is the reset input at a level. -/
theorem external_of_reset {s : State} {e : External} (h : s.resetBy e = true) :
    ∃ b, e = .rst b ∧ s.external e = s.afterReset b := by
  cases e with
  | rst b => exact ⟨b, rfl, if_pos h⟩
  | hostRead i | hostWrite i v | rxEvent n | hostWriteRx i v n => cases h

section
variable {ok : Cause → Prop} {s t : State} (h : Closes ok s t)
include h

/-- At the end ESPB is idle, with nothing left of the operation. -/
theorem Closes.over : t.seq.busy = false ∧ t.Cleared := by
  cases h with
  | raised c hc => exact ⟨rfl, rfl, rfl, rfl, rfl, rfl⟩
  | finished r0 r1 => exact ⟨rfl, rfl, rfl, rfl, rfl, rfl⟩
  | reset e rest hin hr =>
    obtain ⟨b, rfl, hreset⟩ := external_of_reset (s := s.withInputs rest) (by rwa [resetBy_withInputs])
    rw [hreset]
    exact ⟨rfl, rfl, rfl, rfl, rfl, rfl⟩

theorem Closes.frame : t.cfg = s.cfg ∧ t.env.trace = s.env.trace := by
  cases h with
  | raised c hc => exact ⟨rfl, rfl⟩
  | finished r0 r1 => exact ⟨rfl, rfl⟩
  | reset e rest hin hr =>
    obtain ⟨b, rfl, hreset⟩ := external_of_reset (s := s.withInputs rest) (by rwa [resetBy_withInputs])
    rw [hreset]
    exact ⟨rfl, rfl⟩

theorem Closes.orderly (hs : s.Orderly) : t.Orderly := by
  cases h with
  | raised c hc => exact ⟨hs.buf, hs.fb, c.word_middle, hs.up, hs.pending, hs.cache⟩
  | finished r0 r1 => exact ⟨hs.buf, hs.fb, (by decide : (0 : BitVec 16).extractLsb' 4 4 = 0), hs.up, hs.pending, hs.cache⟩
  | reset e rest hin hr =>
    obtain ⟨b, rfl, hreset⟩ := external_of_reset (s := s.withInputs rest) (by rwa [resetBy_withInputs])
    rw [hreset]
    exact ((canonical_iff _).mp (inv_of_atReset (State.afterReset_atReset _ b)).1).1

end

/-! ## The cause -/

/-- Every row of the matrix has `OK`. -/
theorem mayEndWith_ok (i : Instr) :
    mayEndWith i ((0 : BitVec 16).extractLsb 3 0) ((0 : BitVec 16).extractLsb 15 8) = true := by
  cases i <;> decide

/-- Settles O41: an operation that is idle again is over; it raised a cause of its row, or ended with `OK`, or was
reset. -/
theorem causeMatrix : Obligations.CauseMatrix := by
  intro i s t h hidle
  rcases exec_cases h with hwaits | ⟨u, -, hcloses⟩
  · exact absurd (hidle.symm.trans hwaits.1) Bool.false_ne_true
  · cases hcloses with
    | raised c hc =>
      have hcode : (u.raise c).seq.cause.extractLsb 3 0 = c.code := c.word_code
      have hinfo : (u.raise c).seq.cause.extractLsb 15 8 = c.info := c.word_info
      rw [hcode, hinfo]
      exact hc
    | finished r0 r1 => exact mayEndWith_ok i
    | reset e rest hin hr =>
      obtain ⟨b, rfl, hreset⟩ := external_of_reset (s := u.withInputs rest) (by rwa [resetBy_withInputs])
      rw [hreset]
      exact mayEndWith_ok i

/-! ## Without reset -/

/-- No reset is left where none was there before. -/
theorem Advance.not_reset {i : Instr} {s t : State} (h : Advance i s t) (hs : noReset s.env.inputs = true)
    {e : External} {rest : List Input} (hin : t.env.inputs = .ext e :: rest ∨ t.env.inputs = .early e :: rest) :
    ¬ t.resetBy e = true := by
  intro hr
  obtain ⟨taken, -, hinputs, -⟩ := h.ledger
  obtain ⟨b, rfl, -⟩ := external_of_reset hr
  rw [hinputs, noReset, List.all_append, Bool.and_eq_true] at hs
  rcases hin with hin | hin <;> simp [hin, Input.isReset, External.isReset] at hs

/-- Without reset an operation is in flight, has raised a cause or is done. -/
theorem exec_cases_noReset {i : Instr} {s t : State} (hs : noReset s.env.inputs = true) (h : exec i s = .next t) :
    ∃ u, Advance i (s.underway (opcodeOf i)) u ∧ (t = u ∨ (∃ c, t = u.raise c) ∨
      ∃ r0 r1, t = { u with host := { u.host with ret0 := r0, ret1 := r1 } }.done) := by
  have hinputs : (s.underway (opcodeOf i)).env.inputs = s.env.inputs := by
    obtain ⟨q, hq, -⟩ := underway_eq s (opcodeOf i)
    rw [hq]
  rcases exec_cases h with hwaits | ⟨u, hu, hcloses⟩
  · exact ⟨t, hwaits.2, .inl rfl⟩
  · refine ⟨u, hu, .inr ?_⟩
    cases hcloses with
    | raised c hc => exact .inl ⟨c, rfl⟩
    | finished r0 r1 => exact .inr ⟨r0, r1, rfl⟩
    | reset e rest hin hr => exact absurd hr (hu.not_reset (hinputs ▸ hs) hin)

/-- Settles O42: only normal completion writes the results. -/
theorem resultsOnlyOnSuccess : Obligations.ResultsOnlyOnSuccess := by
  intro i s t hs h hend
  obtain ⟨u, hu, ht⟩ := exec_cases_noReset hs h
  obtain ⟨q, hq, -⟩ := underway_eq s (opcodeOf i)
  have hresults := hu.results
  rw [hq] at hresults
  rcases ht with rfl | ⟨c, rfl⟩ | ⟨r0, r1, rfl⟩
  · exact hresults
  · exact hresults
  · rcases hend with hbusy | hcause
    · exact Bool.noConfusion hbusy
    · exact absurd rfl hcause

/-- Settles O43: no way to end an operation touches a unit or an operand register. -/
theorem unitIsolation : Obligations.UnitIsolation := by
  intro i s t hs h
  obtain ⟨u, hu, ht⟩ := exec_cases_noReset hs h
  obtain ⟨q, hq, -⟩ := underway_eq s (opcodeOf i)
  rw [hq] at hu
  rcases ht with rfl | ⟨c, rfl⟩ | ⟨r0, r1, rfl⟩ <;>
    exact ⟨hu.pt, hu.sw, hu.dsp, hu.rf, hu.args.1, hu.args.2.1, hu.args.2.2, hu.text⟩

/-- Settles O44: the end of an operation makes no call. -/
theorem onlyOwnPorts : Obligations.OnlyOwnPorts := by
  intro i s t h
  obtain ⟨q, hq, -⟩ := underway_eq s (opcodeOf i)
  rcases exec_cases h with ⟨-, ht⟩ | ⟨u, hu, hcloses⟩
  · obtain ⟨-, events, -, htrace, hcalls, -⟩ := ht.ledger
    rw [hq] at htrace
    exact ⟨events, htrace, hcalls⟩
  · obtain ⟨-, events, -, htrace, hcalls, -⟩ := hu.ledger
    rw [hq] at htrace
    exact ⟨events, hcloses.frame.2.trans htrace, hcalls⟩

/-! ## Every step -/

/-- What the outside does before a step of an idle ESPB: nothing, or one input is taken and, if it is an outside action,
acted on. -/
inductive Received (s : State) : State → Prop
  | nothing : Received s s
  | taken (rest : List Input) : Received s (s.withInputs rest)
  | acted (rest : List Input) (e : External) : Received s ((s.withInputs rest).external e)

/-- What has been received leaves an idle ESPB idle. -/
theorem Received.idle {s t : State} (h : Received s t) (hidle : s.idle) : t.idle := by
  cases h with
  | nothing => exact hidle
  | taken rest => exact hidle
  | acted rest e =>
    cases hr : (s.withInputs rest).resetBy e with
    | false =>
      obtain ⟨-, -, -, -, -, hseq, -⟩ := external_frame (s.withInputs rest) e hr
      rw [State.idle, hseq]
      exact hidle
    | true =>
      obtain ⟨b, rfl, hreset⟩ := external_of_reset hr
      rw [hreset]
      rfl

/-- An outside action is a command to be run in what has been received, or has been acted on. -/
theorem fetch_of_external {s : State} {e : External} {rest : List Input}
    (h : s.env.inputs = .ext e :: rest ∨ s.env.inputs = .early e :: rest) :
    (∃ w t, s.fetch = .command w t ∧ Received s t ∧ t.env.rst = s.env.rst) ∨
      ∃ t, s.fetch = .handled t ∧ Received s t := by
  by_cases hwrite : ∃ w, e = .hostWrite 0x000 w
  · obtain ⟨w, rfl⟩ := hwrite
    exact .inl ⟨w, _, fetch_hostWrite_cmd s w rest h, .taken rest, rfl⟩
  · by_cases hwriteRx : ∃ w n, e = .hostWriteRx 0x000 w n
    · obtain ⟨w, n, rfl⟩ := hwriteRx
      obtain ⟨-, -, -, -, -, -, -, -, -, hrst⟩ := external_frame (s.withInputs rest) (.rxEvent n) rfl
      exact .inl ⟨w, _, fetch_hostWriteRx_cmd s w n rest h, .acted rest (.rxEvent n), hrst⟩
    · exact .inr ⟨_, fetch_external (fun w hw => hwrite ⟨w, hw⟩) (fun w n hw => hwriteRx ⟨w, n, hw⟩) h,
        .acted rest e⟩

theorem fetch_cases (s : State) : s.fetch = .nothing ∨
    (∃ w t, s.fetch = .command w t ∧ Received s t ∧ t.env.rst = s.env.rst) ∨
      ∃ t, s.fetch = .handled t ∧ Received s t := by
  cases hin : s.env.inputs with
  | nil => exact .inl (fetch_nothing hin)
  | cons x rest =>
    refine .inr ?_
    cases x with
    | answer a => exact .inr ⟨_, fetch_dropped (a := a) (.inl hin), .taken rest⟩
    | pass => exact .inr ⟨_, fetch_dropped (a := ⟨true, 0⟩) (.inr hin), .taken rest⟩
    | ext e => exact fetch_of_external (.inl hin)
    | early e => exact fetch_of_external (.inr hin)

/-- A property is kept by every step if it is kept by an ESPB held in reset, by what an idle one receives, by every
operation in flight or started, and by the illegal command. -/
theorem step_keeps {P : State → Prop} (hheld : ∀ s, P s → s.env.rst = true → P s.held)
    (hreceived : ∀ s t, P s → s.env.rst = false → s.idle → Received s t → P t)
    (hexec : ∀ i s t, P s → s.env.rst = false → (s.seq.busy = true → s.seq.op = opcodeOf i) → exec i s = .next t → P t)
    (hillegal : ∀ s low, P s → s.env.rst = false → (s.seq.busy = true → instrOfOpcode s.seq.op = none) → P (s.illegalCommand low))
    {s t : State} (hs : P s) (h : step s = .next t) : P t := by
  cases hrst : s.env.rst with
  | true =>
    rw [step_of_rst hrst] at h
    exact Host.Outcome.next.inj h ▸ hheld s hs hrst
  | false =>
    cases hbusy : s.seq.busy with
    | true =>
      cases hop : instrOfOpcode s.seq.op with
      | some i =>
        rw [step_of_busy hrst hbusy hop] at h
        exact hexec i s t hs hrst (fun _ => eq_opcodeOf_of_instrOfOpcode hop) h
      | none =>
        have hstep : step s = .next (s.illegalCommand s.seq.op) := by simp [step, hrst, hbusy, resume, hop]
        rw [hstep] at h
        exact Host.Outcome.next.inj h ▸ hillegal s _ hs hrst fun _ => hop
    | false =>
      rcases fetch_cases s with hfetch | ⟨w, u, hfetch, hu, hurst⟩ | ⟨u, hfetch, hu⟩
      · rw [step_of_fetch_nothing hbusy hrst hfetch] at h
        exact Host.Outcome.next.inj h ▸ hs
      · rw [step_of_fetch_command hbusy hrst hfetch] at h
        have hPu := hreceived s u hs hrst hbusy hu
        have hidle {p : Prop} (hu' : u.seq.busy = true) : p :=
          absurd ((hu.idle hbusy).symm.trans hu') Bool.false_ne_true
        cases hdecode : decode w with
        | ok i =>
          rw [command_of_decode_ok u hdecode] at h
          exact hexec i u t hPu (hurst.trans hrst) hidle h
        | error err =>
          rw [command_of_decode_error u hdecode] at h
          exact Host.Outcome.next.inj h ▸ hillegal u _ hPu (hurst.trans hrst) hidle
      · rw [step_of_fetch_handled hbusy hrst hfetch] at h
        exact Host.Outcome.next.inj h ▸ hreceived s u hs hrst hbusy hu

/-! ## The configuration -/

theorem external_cfg (s : State) (e : External) : (s.external e).cfg = s.cfg := by
  cases hr : s.resetBy e with
  | false => exact (external_frame s e hr).1
  | true =>
    obtain ⟨b, rfl, hreset⟩ := external_of_reset hr
    rw [hreset]
    rfl

theorem Received.cfg {s t : State} (h : Received s t) : t.cfg = s.cfg := by
  cases h with
  | nothing => rfl
  | taken rest => rfl
  | acted rest e => exact external_cfg _ e

theorem underway_cfg (s : State) (opc : Byte) : (s.underway opc).cfg = s.cfg := by
  obtain ⟨q, hq, -⟩ := underway_eq s opc
  rw [hq]

theorem outcome_cfg {i : Instr} {ok : Cause → Prop} {s t : State} (h : Reached i s t ∨ Concludes i ok s t) :
    t.cfg = s.cfg := by
  rcases h with ⟨-, ht⟩ | ⟨u, hu, hcloses⟩
  · exact ht.cfg
  · exact hcloses.frame.1.trans hu.cfg

theorem externalHeld_cfg (s : State) (e : External) : (s.externalHeld e).cfg = s.cfg := by
  cases e with
  | hostRead i => exact external_cfg s (.hostRead i)
  | hostWrite i v | rxEvent n | hostWriteRx i v n | rst b => rfl

/-- An ESPB held in reset takes an input, and acts on it if it is an outside action. -/
theorem held_cases (s : State) :
    s.held = s ∨ ∃ rest, s.held = s.withInputs rest ∨ ∃ e, s.held = (s.withInputs rest).externalHeld e := by
  cases hin : s.env.inputs with
  | nil => exact .inl (by rw [State.held, hin])
  | cons x rest =>
    refine .inr ⟨rest, ?_⟩
    cases x with
    | answer a => exact .inl (by rw [State.held, hin])
    | pass => exact .inl (by rw [State.held, hin])
    | ext e => exact .inr ⟨e, held_external (.inl hin)⟩
    | early e => exact .inr ⟨e, held_external (.inr hin)⟩

/-- Settles O45: nothing a step does writes `cfg`. -/
theorem configNeverChanges : Obligations.ConfigNeverChanges := by
  intro s t h
  refine step_keeps (P := fun u => u.cfg = s.cfg) (fun u hu _ => ?_) (fun u v hu _ _ hv => hv.cfg.trans hu)
    (fun i u v hu _ _ hv => ?_) (fun u low hu _ _ => ?_) rfl h
  · rcases held_cases u with hheld | ⟨rest, hheld | ⟨e, hheld⟩⟩
    · rw [hheld, hu]
    · rw [hheld, State.withInputs_cfg, hu]
    · rw [hheld, externalHeld_cfg, State.withInputs_cfg, hu]
  · exact (outcome_cfg (exec_cases hv)).trans ((underway_cfg u _).trans hu)
  · exact (outcome_cfg (illegalCommand_cases .rfOnRecv u low)).trans ((underway_cfg u _).trans hu)

/-! ## The canonical form -/

/-- An outcome of a run from orderly registers. -/
theorem outcome_canonical {i : Instr} {ok : Cause → Prop} {s t : State} (h : Reached i s t ∨ Concludes i ok s t)
    (hs : s.Orderly) : t.Canonical := by
  rw [canonical_iff]
  rcases h with ⟨hbusy, ht⟩ | ⟨u, hu, hcloses⟩
  · exact ⟨ht.orderly hs, fun hidle => absurd (hidle.symm.trans hbusy) Bool.false_ne_true⟩
  · exact ⟨hcloses.orderly (hu.orderly hs), fun _ => hcloses.over.2⟩

/-- A host write keeps `BUF` in its form, since an index of the window is below 256. -/
theorem hostWrite_buf_wellFormed {s : State} (i : HostIndex) (v : Word) (h : s.host.buf.WellFormed 256) :
    (s.hostWrite i v).host.buf.WellFormed 256 := by
  unfold State.hostWrite
  split
  · unfold State.hostWriteBusy
    repeat' split
    all_goals exact h
  · unfold State.hostWriteIdle
    dsimp only
    split
    · exact Memory.write_wellFormed h (by omega) _
    · split <;> exact h

theorem rxEvent_host (s : State) : s.rxEvent.host = s.host := by
  unfold State.rxEvent
  split <;> rfl

theorem external_buf_wellFormed {s : State} (e : External) (hr : s.resetBy e = false)
    (h : s.host.buf.WellFormed 256) : (s.external e).host.buf.WellFormed 256 := by
  cases e with
  | hostRead i =>
    unfold State.external State.hostRead
    dsimp only
    split <;> exact h
  | hostWrite i v => exact hostWrite_buf_wellFormed i v h
  | rxEvent n =>
    rw [external_rxEvent, rxEvent_host]
    exact h
  | hostWriteRx i v n =>
    rw [external_hostWriteRx, rxEvent_host]
    exact hostWrite_buf_wellFormed i v h
  | rst b => simpa [State.external, hr] using h

theorem external_canonical {s : State} (e : External) (h : s.Canonical) : (s.external e).Canonical := by
  cases hr : s.resetBy e with
  | false =>
    rw [canonical_iff] at h ⊢
    obtain ⟨⟨hbuf, hfb, hcause, hup, hpending, hcache⟩, hcleared⟩ := h
    obtain ⟨hcfg, hpt, hsw, hdsp, -, hseq, -⟩ := external_frame s e hr
    refine ⟨⟨external_buf_wellFormed e hr hbuf, by rwa [hdsp], by rwa [hseq], by rwa [hcfg, hpt],
      external_pending e hr hpending, by rwa [hsw]⟩, ?_⟩
    unfold State.Cleared
    rw [hseq]
    exact hcleared
  | true =>
    obtain ⟨b, rfl, hreset⟩ := external_of_reset hr
    rw [hreset]
    exact (inv_of_atReset (s.afterReset_atReset b)).1

theorem withInputs_canonical {s : State} (l : List Input) (h : s.Canonical) : (s.withInputs l).Canonical := h

theorem Received.canonical {s t : State} (h : Received s t) (hs : s.Canonical) : t.Canonical := by
  cases h with
  | nothing => exact hs
  | taken rest => exact hs
  | acted rest e => exact external_canonical e (withInputs_canonical rest hs)

theorem externalHeld_canonical {s : State} (e : External) (h : s.Canonical) : (s.externalHeld e).Canonical := by
  cases e with
  | hostRead i => exact external_canonical (.hostRead i) h
  | hostWrite i v | rxEvent n | hostWriteRx i v n => exact h
  | rst b => exact (inv_of_atReset (s.afterReset_atReset b)).1

/-- Settles O46: the outcomes of a run and the outside actions keep the registers orderly, and what is idle is
cleared. -/
theorem stepKeepsCanonical : Obligations.StepKeepsCanonical := by
  intro s t hs h
  refine step_keeps (P := State.Canonical) (fun u hu _ => ?_) (fun u v hu _ _ hv => hv.canonical hu)
    (fun i u v hu _ _ hv => ?_) (fun u low hu _ _ => ?_) hs h
  · rcases held_cases u with hheld | ⟨rest, hheld | ⟨e, hheld⟩⟩
    · rwa [hheld]
    · rwa [hheld]
    · rw [hheld]
      exact externalHeld_canonical e (withInputs_canonical rest hu)
  · exact outcome_canonical (exec_cases hv) (underway_orderly _ ((canonical_iff u).mp hu).1)
  · exact outcome_canonical (illegalCommand_cases .rfOnRecv u low)
      (underway_orderly _ ((canonical_iff u).mp hu).1)

end Sys2Proof.Machine
end

section
/-! PROOFS. More inputs after those given (logs 1, 2 and 11): a run that goes on or ends does the same with them still to
come; a run that waits has taken all inputs, stands at a step that asks, and goes on from there with them. -/

namespace Sys2Proof.Machine

/-! ## More inputs -/

/-- `s` with `ys` after the inputs still to come. -/
def State.extend (s : State) (ys : List Input) : State := s.withInputs (s.env.inputs ++ ys)

/-- What comes of a step, with other inputs still to come. -/
def Stepped.withInputs (r : Stepped) (l : List Input) : Stepped :=
  match r with
  | .go k s => .go k (s.withInputs l)
  | .ended s => .ended (s.withInputs l)
  | .wait s => .wait (s.withInputs l)

/-- What comes of an answer, with other inputs still to come. -/
def Served.withInputs (r : Served) (l : List Input) : Served :=
  match r with
  | .again s => .again (s.withInputs l)
  | .leave r => .leave (r.withInputs l)

theorem State.view_eq_withInputs {s : State} {b : Bool} {reads : List HostReadResult} {l : List Input}
    (h : s = s.view b reads l) (l' : List Input) : s.view b reads l' = s.withInputs l' := by
  have hagain : s.view b reads l' = (s.view b reads l).withInputs l' := rfl
  rw [hagain, ← h]

theorem Stepped.view_eq_withInputs {r : Stepped} {b : Bool} {reads : List HostReadResult} {l : List Input}
    (h : r = r.view b reads l) (l' : List Input) : r.view b reads l' = r.withInputs l' := by
  cases r with
  | go k s => exact congrArg (Stepped.go k) (State.view_eq_withInputs (Stepped.go.inj h).2 l')
  | ended s => exact congrArg Stepped.ended (State.view_eq_withInputs (Stepped.ended.inj h) l')
  | wait s => exact congrArg Stepped.wait (State.view_eq_withInputs (Stepped.wait.inj h) l')

/-- A blind part of a step does the same with other inputs still to come. -/
theorem Stepped.withInputs_of_blind {f : State → Stepped}
    (hf : ∀ s b reads l, f (s.view b reads l) = (f s).view b reads l) (s : State) (l : List Input) :
    f (s.withInputs l) = (f s).withInputs l := by
  have hself : f s = (f s).view s.rf.rxpend s.env.hostReads s.env.inputs := hf s _ _ s.env.inputs
  rw [State.withInputs_eq_view, hf, Stepped.view_eq_withInputs hself]

theorem Served.withInputs_of_blind {f : State → Served}
    (hf : ∀ s b reads l, f (s.view b reads l) = (f s).view b reads l) (s : State) (l : List Input) :
    f (s.withInputs l) = (f s).withInputs l := by
  have hself : f s = (f s).view s.rf.rxpend s.env.hostReads s.env.inputs := hf s _ _ s.env.inputs
  rw [State.withInputs_eq_view, hf]
  cases hr : f s with
  | again t =>
    rw [hr] at hself
    exact congrArg Served.again (State.view_eq_withInputs (Served.again.inj hself) l)
  | leave r =>
    rw [hr] at hself
    exact congrArg Served.leave (Stepped.view_eq_withInputs (Served.leave.inj hself) l)

/-- What comes of a step, with more inputs still to come. -/
def Stepped.extend (r : Stepped) (ys : List Input) : Stepped :=
  match r with
  | .go k s => .go k (s.extend ys)
  | .ended s => .ended (s.extend ys)
  | .wait s => .wait (s.extend ys)

/-- The same, where a step that waits goes on with them. -/
def Stepped.resume (r : Stepped) (ys : List Input) (again : State → Stepped) : Stepped :=
  match r with
  | .go k s => .go k (s.extend ys)
  | .ended s => .ended (s.extend ys)
  | .wait s => again (s.extend ys)

/-- What comes of an answer, with more inputs still to come. -/
def Served.extend (r : Served) (ys : List Input) : Served :=
  match r with
  | .again s => .again (s.extend ys)
  | .leave r => .leave (r.extend ys)

theorem Stepped.extend_of_inputs {r : Stepped} {l : List Input} (h : r.current.env.inputs = l) (ys : List Input) :
    r.withInputs (l ++ ys) = r.extend ys := by
  subst h
  cases r <;> rfl

/-- A blind part of a step leaves the inputs. -/
theorem Stepped.inputs_of_blind {f : State → Stepped}
    (hf : ∀ s b reads l, f (s.view b reads l) = (f s).view b reads l) (s : State) :
    (f s).current.env.inputs = s.env.inputs := by
  have hself : f s = (f s).view s.rf.rxpend s.env.hostReads s.env.inputs := hf s _ _ s.env.inputs
  rw [hself]
  cases f s <;> rfl

theorem Stepped.extend_of_blind {f : State → Stepped}
    (hf : ∀ s b reads l, f (s.view b reads l) = (f s).view b reads l) (s : State) (ys : List Input) :
    f (s.extend ys) = (f s).extend ys := by
  rw [State.extend, Stepped.withInputs_of_blind hf, Stepped.extend_of_inputs (Stepped.inputs_of_blind hf s)]

theorem Served.extend_of_blind {f : State → Served}
    (hf : ∀ s b reads l, f (s.view b reads l) = (f s).view b reads l) (s : State) (ys : List Input) :
    f (s.extend ys) = (f s).extend ys := by
  have hself : f s = (f s).view s.rf.rxpend s.env.hostReads s.env.inputs := hf s _ _ s.env.inputs
  rw [State.extend, Served.withInputs_of_blind hf]
  cases hr : f s with
  | again t =>
    rw [hr] at hself
    rw [Served.again.inj hself]
    rfl
  | leave r =>
    rw [hr] at hself
    rw [Served.leave.inj hself]
    cases r <;> rfl

/-- What never waits need not be resumed. -/
theorem Allowed.extend_eq_resume {i : Instr} {s : State} {r : Stepped} (h : Allowed i s r) (ys : List Input)
    (again : State → Stepped) : r.extend ys = r.resume ys again := by
  cases r with
  | go k t => rfl
  | ended t => rfl
  | wait t => exact h.elim

/-! ## Outside actions -/

/-- `s` with SEQ at step `n`, `k` failed reads and other inputs still to come. -/
def State.placed (s : State) (n k : Nat) (l : List Input) : State :=
  { s with seq := { s.seq with phase := n, polls := k }, env := { s.env with inputs := l } }

section
variable (s : State) (n k : Nat) (l : List Input)

theorem hostWriteIdle_placed (i : HostIndex) (v : Word) :
    (s.placed n k l).hostWriteIdle i v = (s.hostWriteIdle i v).placed n k l := by
  unfold State.hostWriteIdle
  dsimp only
  rw [apply_ite (State.placed · n k l)]
  refine if_congr Iff.rfl rfl ?_
  generalize i.toNat = m
  split <;> rfl

theorem hostWrite_placed (i : HostIndex) (v : Word) :
    (s.placed n k l).hostWrite i v = (s.hostWrite i v).placed n k l := by
  unfold State.hostWrite
  rw [hostWriteIdle_placed, apply_ite (State.placed · n k l)]
  refine if_congr Iff.rfl ?_ rfl
  unfold State.hostWriteBusy
  simp only [apply_ite (State.placed · n k l)]
  rfl

theorem rxEvent_placed : (s.placed n k l).rxEvent = s.rxEvent.placed n k l := by
  unfold State.rxEvent
  rw [apply_ite (State.placed · n k l)]
  rfl

theorem hostRead_placed (i : HostIndex) : (s.placed n k l).hostRead i = (s.hostRead i).placed n k l := by
  unfold State.hostRead
  rw [apply_ite (State.placed · n k l)]
  rfl

/-- No outside action but a reset looks at the step, the failed reads or the inputs still to come. -/
theorem external_placed (e : External) (hr : s.resetBy e = false) :
    (s.placed n k l).external e = (s.external e).placed n k l := by
  cases e with
  | hostRead i => exact hostRead_placed s n k l i
  | hostWrite i v => exact hostWrite_placed s n k l i v
  | rxEvent num => exact rxEvent_placed s n k l
  | hostWriteRx i v num =>
    exact (congrArg State.rxEvent (hostWrite_placed s n k l i v)).trans (rxEvent_placed _ n k l)
  | rst b =>
    have hsame : s.external (.rst b) = s := if_neg (by rw [hr]; exact Bool.false_ne_true)
    have hsame' : (s.placed n k l).external (.rst b) = s.placed n k l := if_neg (by
      have hlevel : (s.placed n k l).resetBy (.rst b) = s.resetBy (.rst b) := rfl
      rw [hlevel, hr]
      exact Bool.false_ne_true)
    rw [hsame, hsame']

end

/-- No outside action looks at the inputs still to come. -/
theorem external_withInputs (s : State) (l : List Input) (e : External) :
    (s.withInputs l).external e = (s.external e).withInputs l := by
  cases hr : s.resetBy e with
  | false =>
    obtain ⟨-, -, -, -, -, hseq, -⟩ := external_frame s e hr
    have hplaced : (s.external e).placed s.seq.phase s.seq.polls l = (s.external e).withInputs l := by
      have hphase : s.seq.phase = (s.external e).seq.phase := (congrArg Seq.phase hseq).symm
      have hpolls : s.seq.polls = (s.external e).seq.polls := (congrArg Seq.polls hseq).symm
      rw [hphase, hpolls]
      rfl
    rw [← hplaced, ← external_placed _ _ _ _ _ hr]
    rfl
  | true =>
    obtain ⟨b, rfl, hreset⟩ := external_of_reset hr
    rw [hreset]
    exact if_pos hr

/-! ## Before a step and within a step -/

theorem absorb_early (e : External) (rest : List Input) (s : State) :
    absorb (.early e :: rest) s = if s.resetBy e then .ended ((s.withInputs rest).external e)
      else absorb rest ((s.withInputs rest).external e) := rfl

theorem serve_external {x : Input} {e : External} (hx : x = .ext e ∨ x = .early e) (prim : State → Prim)
    (reply : Answer → State → Served) (rest : List Input) (s : State) :
    serve prim reply (x :: rest) s = if s.resetBy e then .ended ((s.withInputs rest).external e)
      else serve prim reply rest ((s.withInputs rest).external e) := by
  rcases hx with rfl | rfl <;> rfl

section
variable (ys : List Input)

theorem State.extend_of_inputs {s : State} {l : List Input} (h : s.env.inputs = l) :
    s.extend ys = s.withInputs (l ++ ys) := by rw [State.extend, h]

/-- One outside action is acted on. -/
theorem extend_external (s : State) (e : External) (rest : List Input) :
    ((s.extend ys).withInputs (rest ++ ys)).external e = ((s.withInputs rest).external e).extend ys := by
  rw [State.extend, State.extend, external_inputs, ← external_withInputs]
  rfl

theorem absorb_extend (hys : quiet ys = true) (s : State) :
    absorb (s.extend ys).env.inputs (s.extend ys) = (absorb s.env.inputs s).extend ys := by
  generalize hl : s.env.inputs = l
  have hinputs : (s.extend ys).env.inputs = l ++ ys := by rw [← hl]; rfl
  rw [hinputs]
  induction l generalizing s with
  | nil => exact absorb_quiet ys _ hys
  | cons x rest ih =>
    cases x with
    | answer a => rfl
    | ext e => rfl
    | pass => rfl
    | early e =>
      rw [List.cons_append, absorb_early, absorb_early, extend_external, State.extend, resetBy_withInputs]
      split
      · rfl
      · exact ih _ (by simp) (by simp [State.extend])

theorem serve_extend {i : Instr} {prim : State → Prim} {reply : Answer → State → Served} (hprim : BlindValue prim)
    (hblind : ∀ a s b reads l, reply a (s.view b reads l) = (reply a s).view b reads l)
    (hallowed : ∀ a s, (reply a s).Post (Change i s) (fun _ => Change i s) (Concludes i (mayRaise i) s) (fun _ => False))
    (s : State) :
    serve prim reply (s.extend ys).env.inputs (s.extend ys) =
      (serve prim reply s.env.inputs s).resume ys fun t => serve prim reply t.env.inputs t := by
  generalize hl : s.env.inputs = l
  have hinputs : (s.extend ys).env.inputs = l ++ ys := by rw [← hl]; rfl
  rw [hinputs]
  induction l generalizing s with
  | nil =>
    rw [State.extend_of_inputs ys hl]
    rfl
  | cons x rest ih =>
    have hexternal {e : External} (hx : x = .ext e ∨ x = .early e) :
        serve prim reply (x :: rest ++ ys) (s.extend ys) =
          (serve prim reply (x :: rest) s).resume ys fun t => serve prim reply t.env.inputs t := by
      rw [List.cons_append, serve_external hx, serve_external hx, extend_external, State.extend,
        resetBy_withInputs]
      split
      · rfl
      · exact ih _ (by simp) (by simp [State.extend])
    cases x with
    | ext e => exact hexternal (.inl rfl)
    | early e => exact hexternal (.inr rfl)
    | pass => exact ih (s.withInputs rest) rfl rfl
    | answer raw =>
      have hask : prim (s.extend ys) = prim s := hprim s _ _ _
      rw [List.cons_append, serve_answer, serve_answer, hask]
      generalize (prim s).returns raw = a
      have hafter : ((s.extend ys).withInputs (rest ++ ys)).record (prim s) a =
          ((s.withInputs rest).record (prim s) a).extend ys := rfl
      rw [hafter, Served.extend_of_blind (hblind a)]
      cases hr : reply a ((s.withInputs rest).record (prim s) a) with
      | again t =>
        have ht : t.env.inputs = rest := Served.inputs_of_blind (hblind a) hr
        exact ih t ht (by rw [State.extend, ht]; rfl)
      | leave r =>
        have := hallowed a ((s.withInputs rest).record (prim s) a)
        rw [hr] at this
        exact Allowed.extend_eq_resume this ys _

end

/-! ## The place at which a run waits -/

/-- The operation is in flight at step `p`. -/
def State.AtStep (s : State) (p : Nat) : Prop := s.seq.busy = true ∧ s.seq.phase = p

theorem Change.atStep {i : Instr} {s t : State} {p : Nat} (h : Change i s t) (hs : s.AtStep p) : t.AtStep p :=
  ⟨h.busy.trans hs.1, h.phase.trans hs.2⟩

theorem undisturbed_atStep (p : Nat) : Undisturbed (State.AtStep · p) fun _ => True where
  pass _ h := h
  ext hin hr h := (change_take_external (i := .rfOnRecv) hin hr h.1).atStep h
  reset _ _ _ := trivial

/-- The actions before a step leave SEQ at it. -/
theorem absorb_atStep {p : Nat} {s : State} (h : s.AtStep p) :
    (absorb s.env.inputs s).Post (fun k t => k = 0 ∧ t.AtStep p) (fun _ => True) (fun _ => False) :=
  absorb_post (undisturbed_atStep p) h

section
variable {i : Instr}

/-- A step that asks keeps asking until it is answered. -/
theorem Asking.undisturbed {exit : State → Option Stepped} {prim : State → Prim} {reply : Answer → State → Served}
    (h : Asking i exit prim reply) (p : Nat) :
    Undisturbed (fun s => s.AtStep p ∧ exit s = none) fun _ => True where
  pass _ hs := ⟨hs.1, by rw [State.withInputs_eq_view, h.exit_blind, hs.2]; rfl⟩
  ext {s e rest} hin hr hs := by
    have hexit : exit (s.withInputs rest) = none := by rw [State.withInputs_eq_view, h.exit_blind, hs.2]; rfl
    exact ⟨(undisturbed_atStep p).ext hin hr hs.1, h.exit_external (by rw [resetBy_withInputs, hr]) hexit⟩
  reset _ _ _ := trivial

theorem Asking.serve_post {exit : State → Option Stepped} {prim : State → Prim} {reply : Answer → State → Served}
    (h : Asking i exit prim reply) {s : State} {p : Nat} (hs : s.AtStep p) (hexit : exit s = none) :
    (serve prim reply s.env.inputs s).Post (fun _ t => t.AtStep p) (fun _ => True)
      (fun t => t.env.inputs = [] ∧ t.AtStep p ∧ exit t = none) := by
  refine Machine.serve_post (h.undisturbed p) (fun hin ht => ⟨hin, ht⟩) (fun {u raw rest} _ hu => ?_) ⟨hs, hexit⟩
  have hu' : ((u.withInputs rest).record (prim u) ((prim u).returns raw)).AtStep p := hu.1
  have hreply := h.reply_allowed ((prim u).returns raw) ((u.withInputs rest).record (prim u) ((prim u).returns raw))
  cases hr : reply ((prim u).returns raw) ((u.withInputs rest).record (prim u) ((prim u).returns raw)) with
  | again v =>
    rw [hr] at hreply
    exact ⟨Served.inputs_of_blind (h.reply_blind _) hr, Change.atStep hreply hu', h.exit_again hr⟩
  | leave r =>
    rw [hr] at hreply
    exact Stepped.Post.imp hreply (fun _ _ hv => hv.atStep hu') (fun _ _ => trivial) fun _ => False.elim

/-- SEQ stays at a step until the step is over, and only a step that asks waits, when no input is left. -/
theorem Fits.post_atStep {m : MicroStep} {b : Bool} (h : Fits i m b) {s : State} {p : Nat} (hs : s.AtStep p) :
    (m s).Post (fun _ t => t.AtStep p) (fun _ => True) (fun t => b = true ∧ t.env.inputs = [] ∧ t.AtStep p) := by
  cases h with
  | silent h => exact (h.allowed s).imp (fun _ _ ht => ht.atStep hs) (fun _ _ => trivial) fun _ => False.elim
  | @asking exit prim reply hm h =>
    subst hm
    unfold decideOrAsk
    cases hexit : exit s with
    | some r =>
      exact (h.exit_allowed hexit).imp (fun _ _ ht => ht.atStep hs) (fun _ _ => trivial) fun _ => False.elim
    | none => exact (h.serve_post hs hexit).imp (fun _ _ ht => ht) (fun _ ht => ht) fun _ ⟨hin, ht, _⟩ => ⟨rfl, hin, ht⟩

theorem Stepped.resume_congr {r : Stepped} {ys : List Input} {f g : State → Stepped}
    (h : r.Post (fun _ _ => True) (fun _ => True) fun t => f (t.extend ys) = g (t.extend ys)) :
    r.resume ys f = r.resume ys g := by
  cases r with
  | go k t => rfl
  | ended t => rfl
  | wait t => exact h

/-- A step with more inputs still to come. -/
theorem Fits.extend {m : MicroStep} {b : Bool} (h : Fits i m b) {s : State} (hbusy : s.seq.busy = true)
    (ys : List Input) : m (s.extend ys) = (m s).resume ys m := by
  cases h with
  | silent h => rw [Stepped.extend_of_blind h.blind, (h.allowed s).extend_eq_resume ys m]
  | @asking exit prim reply hm h =>
    subst hm
    have hnone {t : State} (ht : exit t = none) : exit (t.extend ys) = none := by
      rw [State.extend, State.withInputs_eq_view, h.exit_blind, ht]
      rfl
    cases hexit : exit s with
    | some r =>
      have hself := h.exit_blind s s.rf.rxpend s.env.hostReads s.env.inputs
      have hextended := h.exit_blind s s.rf.rxpend s.env.hostReads (s.env.inputs ++ ys)
      have hs : s.view s.rf.rxpend s.env.hostReads s.env.inputs = s := rfl
      rw [hs, hexit, Option.map_some, Option.some_inj] at hself
      rw [hexit, Option.map_some, Stepped.view_eq_withInputs hself,
        Stepped.extend_of_inputs (by rw [hself]; cases r <;> rfl)] at hextended
      have hdecide : decideOrAsk exit prim reply s = r := by rw [decideOrAsk, hexit]; rfl
      have hdecide' : decideOrAsk exit prim reply (s.extend ys) = r.extend ys := by
        rw [decideOrAsk]
        exact congrArg (Option.getD · _) hextended
      rw [hdecide, hdecide', Allowed.extend_eq_resume (h.exit_allowed hexit)]
    | none =>
      have hasks {t : State} (ht : exit t = none) :
          decideOrAsk exit prim reply t = serve prim reply t.env.inputs t := by rw [decideOrAsk, ht]; rfl
      rw [hasks hexit, hasks (hnone hexit), serve_extend ys h.prim_blind h.reply_blind h.reply_allowed]
      refine Stepped.resume_congr ((h.serve_post ⟨hbusy, rfl⟩ hexit).imp (fun _ _ _ => trivial)
        (fun _ _ => trivial) fun t ht => ?_)
      exact (hasks (hnone ht.2.2)).symm

/-! ## Lists of steps -/

/-- SEQ goes on with `f`, unless the operation is over or waits. -/
def Stepped.andThen (r : Stepped) (f : Nat → State → Stepped) : Stepped :=
  match r with
  | .go k s => f k s
  | .ended s => .ended s
  | .wait s => .wait s

theorem runSteps_cons_eq (m : MicroStep) (ms : List MicroStep) (s : State) :
    runSteps (m :: ms) 0 s = (absorb s.env.inputs s).andThen fun _ t =>
      (m t).andThen fun k u => runSteps ms k u.nextPhase := by
  rw [runSteps]
  cases absorb s.env.inputs s with
  | go k t => cases hm : m t <;> simp only [Stepped.andThen, hm]
  | ended t => rfl
  | wait t => rfl

/-- A run waits at a step that asks, when no input is left. -/
theorem runSteps_waits {ms : List MicroStep} {bs : List Bool} (h : List.Forall₂ (Fits i) ms bs) (k : Nat) {s : State}
    (hbusy : s.seq.busy = true) :
    (runSteps ms k s).Post (fun _ _ => True) (fun _ => True)
      (fun t => t.env.inputs = [] ∧ ∃ j, t.AtStep (s.seq.phase + j) ∧ bs[j]? = some true) := by
  induction h generalizing k s with
  | nil => trivial
  | @cons m b ms bs hm _ ih =>
    have hlater {j : Nat} {u : State} (hu : u.AtStep s.seq.phase) :
        (runSteps ms j u.nextPhase).Post (fun _ _ => True) (fun _ => True)
          (fun t => t.env.inputs = [] ∧ ∃ j, t.AtStep (s.seq.phase + j) ∧ (b :: bs)[j]? = some true) := by
      refine (ih j (s := u.nextPhase) hu.1).imp (fun _ _ _ => trivial) (fun _ _ => trivial) ?_
      rintro t ⟨hin, j, ht, hj⟩
      refine ⟨hin, j + 1, ?_, hj⟩
      rwa [← hu.2, ← Nat.add_assoc, Nat.add_right_comm]
    cases k with
    | succ k => exact hlater ⟨hbusy, rfl⟩
    | zero =>
      have habsorb := absorb_atStep (s := s) ⟨hbusy, rfl⟩
      unfold runSteps
      cases hr : absorb s.env.inputs s with
      | go k u =>
        rw [hr] at habsorb
        have hstep := hm.post_atStep habsorb.2
        dsimp only
        cases hmu : m u with
        | go k v => rw [hmu] at hstep; exact hlater hstep
        | ended v => trivial
        | wait v =>
          rw [hmu] at hstep
          obtain ⟨hb, hin, hv⟩ := hstep
          exact ⟨hin, 0, hv, congrArg some hb⟩
      | ended u => trivial
      | wait u => rw [hr] at habsorb; exact habsorb.elim

/-- A run with more inputs still to come: where it waits it goes on from the step it waits at. -/
theorem runSteps_extend {ms : List MicroStep} {bs : List Bool} (h : List.Forall₂ (Fits i) ms bs) (k : Nat) {s : State}
    (hbusy : s.seq.busy = true) {ys : List Input} (hys : quiet ys = true) :
    runSteps ms k (s.extend ys) = (runSteps ms k s).resume ys fun t =>
      runSteps (ms.drop (t.seq.phase - s.seq.phase)) 0 t := by
  induction h generalizing k s with
  | nil => rfl
  | @cons m b ms bs hm hms ih =>
    have hlater {j : Nat} {u : State} (hu : u.AtStep s.seq.phase) :
        runSteps ms j (u.nextPhase.extend ys) = (runSteps ms j u.nextPhase).resume ys fun t =>
          runSteps ((m :: ms).drop (t.seq.phase - s.seq.phase)) 0 t := by
      rw [ih j (s := u.nextPhase) hu.1]
      refine Stepped.resume_congr ((runSteps_waits hms j (s := u.nextPhase) hu.1).imp (fun _ _ _ => trivial)
        (fun _ _ => trivial) ?_)
      rintro t ⟨-, j, ht, -⟩
      have hphase : (t.extend ys).seq.phase = s.seq.phase + 1 + j := by
        rw [← hu.2]
        exact ht.2
      have hnext : u.nextPhase.seq.phase = s.seq.phase + 1 := congrArg (· + 1) hu.2
      have hplace : s.seq.phase + 1 + j - s.seq.phase = j + 1 := by omega
      rw [hphase, hnext, hplace, Nat.add_sub_cancel_left, List.drop_succ_cons]
    cases k with
    | succ k => exact hlater ⟨hbusy, rfl⟩
    | zero =>
      have habsorb := absorb_atStep (s := s) ⟨hbusy, rfl⟩
      rw [runSteps_cons_eq, runSteps_cons_eq, absorb_extend ys hys]
      cases hr : absorb s.env.inputs s with
      | go k u =>
        rw [hr] at habsorb
        have hstep := hm.post_atStep habsorb.2
        dsimp only [Stepped.extend, Stepped.andThen]
        rw [hm.extend habsorb.2.1]
        cases hmu : m u with
        | go k v => rw [hmu] at hstep; exact hlater hstep
        | ended v => rfl
        | wait v =>
          rw [hmu] at hstep
          obtain ⟨-, hin, hv⟩ := hstep
          have hphase : (v.extend ys).seq.phase = s.seq.phase := hv.2
          have hinputs : (v.extend ys).env.inputs = ys := by
            rw [State.extend, hin]
            rfl
          dsimp only [Stepped.resume]
          rw [hphase, Nat.sub_self, List.drop_zero, runSteps_cons_eq,
            absorb_quiet _ _ (by rw [hinputs]; exact hys)]
          rfl
      | ended u => rfl
      | wait u => rw [hr] at habsorb; exact habsorb.elim

end

end Sys2Proof.Machine
end

section
/-! PROOFS. An operation with more inputs still to come (logs 1, 2, 3 and 11): one that is over is over as before, one
that waits goes on from the step it waits at. -/

namespace Sys2Proof.Machine

/-! ## The run of an operation -/

/-- What comes of the steps of operation `i` that are left. -/
def State.runOf (s : State) (i : Instr) : Stepped :=
  runSteps ((programOf i (s.underway (opcodeOf i))).drop ((s.underway (opcodeOf i)).seq.phase - 1)) 0
    (s.underway (opcodeOf i))

theorem exec_eq_runOf (i : Instr) (s : State) : exec i s = .next (s.runOf i).state := exec_eq_launch i s

theorem remaining_fits (i : Instr) (s : State) (n : Nat) :
    List.Forall₂ (Fits i) ((programOf i s).drop n) ((askFlags i s).drop n) :=
  List.forall₂_drop n (programOf_fits i s)

theorem runOf_post (i : Instr) (s : State) :
    (s.runOf i).Post (fun _ => Reached i (s.underway (opcodeOf i)))
      (Concludes i (mayRaise i) (s.underway (opcodeOf i))) (Reached i (s.underway (opcodeOf i))) :=
  runSteps_reached (remaining_fits i _ _) 0 ⟨underway_busy s _, Advance.refl i _⟩

/-- An operation that is in flight waits. -/
theorem runOf_eq_wait {i : Instr} {s t : State} (h : exec i s = .next t) (hbusy : t.seq.busy = true) :
    s.runOf i = .wait t := by
  have hpost := runOf_post i s
  have hidle {u : State} (hu : u.seq.busy = false) (hut : u = t) : False :=
    Bool.false_ne_true (hu.symm.trans (hut ▸ hbusy))
  rw [exec_eq_runOf, Host.Outcome.next.injEq] at h
  cases hr : s.runOf i with
  | go k u => exact (hidle (u := u.done) rfl (by rw [← h, hr]; rfl)).elim
  | ended u =>
    rw [hr] at hpost h
    obtain ⟨v, -, hcloses⟩ := hpost
    exact (hidle hcloses.over.1 h).elim
  | wait u =>
    rw [hr] at h
    exact congrArg Stepped.wait h

/-! ## The same steps all along -/

theorem text_congr {s t : State} (hlen : t.host.len = s.host.len) (hbuf : t.host.buf = s.host.buf)
    (hepoch : t.env.epoch = s.env.epoch) : t.text = s.text := by
  have hbyte (k : Nat) : t.bufByte k = s.bufByte k := by rw [State.bufByte, State.bufByte, hbuf, hepoch]
  rw [State.text, State.text, hlen]
  exact List.map_congr_left fun k _ => hbyte k

theorem Advance.programOf_eq {i : Instr} {s t : State} (h : Advance i s t) : programOf i t = programOf i s := by
  have htext (hi : i ≠ .dspShowNum) : t.text = s.text := text_congr (h.text hi).1 (h.text hi).2 h.epoch
  cases i with
  | dspInit => exact congrArg (fun c : Config => dspInitSteps c.dsp) h.cfg
  | rfInit => exact congrArg (fun c : Config => rfInitSteps c.rf) h.cfg
  | rfSend => exact congrArg rfSendSteps (htext Instr.noConfusion)
  | ptInit | ptReadT | ptReadP | swReadT | swReadH | swSetCal | dspClear | dspShowStr | dspShowNum | rfOnRecv => rfl

/-! ## More inputs -/

theorem underway_extend (s : State) (opc : Byte) (ys : List Input) :
    (s.extend ys).underway opc = (s.underway opc).extend ys := by
  have hbusy : (s.extend ys).seq.busy = s.seq.busy := rfl
  unfold State.underway
  rw [hbusy]
  split <;> rfl

theorem underway_phase {s : State} (opc : Byte) (hphase : s.seq.busy = true → 1 ≤ s.seq.phase) :
    1 ≤ (s.underway opc).seq.phase := by
  unfold State.underway
  split
  · rename_i hbusy
    exact hphase hbusy
  · exact Nat.le_refl 1

/-- An operation waits at one of its steps that ask, when no input is left. -/
theorem runOf_waits (i : Instr) {s : State} (hphase : s.seq.busy = true → 1 ≤ s.seq.phase) :
    (s.runOf i).Post (fun _ _ => True) (fun _ => True) fun t => t.env.inputs = [] ∧
      Reached i (s.underway (opcodeOf i)) t ∧ (s.underway (opcodeOf i)).seq.phase ≤ t.seq.phase ∧
      (askFlags i (s.underway (opcodeOf i)))[t.seq.phase - 1]? = some true := by
  have hstart := underway_phase (opcodeOf i) hphase
  have hbusy := underway_busy s (opcodeOf i)
  have hreached := runOf_post i s
  unfold State.runOf at hreached ⊢
  generalize s.underway (opcodeOf i) = u at *
  have hwaits := runSteps_waits (remaining_fits i u (u.seq.phase - 1)) 0 hbusy
  cases hr : runSteps ((programOf i u).drop (u.seq.phase - 1)) 0 u with
  | go k t => trivial
  | ended t => trivial
  | wait t =>
    rw [hr] at hwaits hreached
    obtain ⟨hin, j, ⟨-, hplace⟩, hflag⟩ := hwaits
    have hindex : u.seq.phase - 1 + j = t.seq.phase - 1 := by omega
    rw [List.getElem?_drop, hindex] at hflag
    exact ⟨hin, hreached, hplace ▸ Nat.le_add_right _ j, hflag⟩

/-- An operation with more inputs: where it waits it goes on from there. -/
theorem runOf_extend (i : Instr) {s : State} (hphase : s.seq.busy = true → 1 ≤ s.seq.phase) {ys : List Input}
    (hys : quiet ys = true) : (s.extend ys).runOf i = (s.runOf i).resume ys (State.runOf · i) := by
  have hstart := underway_phase (opcodeOf i) hphase
  have hwaits := runOf_waits i hphase
  unfold State.runOf at hwaits
  have hrun := runSteps_extend (remaining_fits i (s.underway (opcodeOf i)) ((s.underway (opcodeOf i)).seq.phase - 1)) 0
    (underway_busy s (opcodeOf i)) hys
  rw [State.runOf, underway_extend]
  refine hrun.trans (Stepped.resume_congr (hwaits.imp (fun _ _ _ => trivial) (fun _ _ => trivial) ?_))
  rintro t ⟨-, ⟨hbusy, hadvance⟩, hplace, -⟩
  have hunderway : (t.extend ys).underway (opcodeOf i) = t.extend ys := underway_of_busy _ hbusy
  have hprogram : programOf i (t.extend ys) = programOf i (s.underway (opcodeOf i)) :=
    (Advance.programOf_eq (i := i) (s := t) (Advance.refl i t)).trans hadvance.programOf_eq
  have hdrop : (s.underway (opcodeOf i)).seq.phase - 1 + (t.seq.phase - (s.underway (opcodeOf i)).seq.phase) =
      t.seq.phase - 1 := by omega
  have hseq : (t.extend ys).seq = t.seq := rfl
  rw [State.runOf, hunderway, hprogram, List.drop_drop, hseq, hdrop]

/-- Settles O50: a run with more inputs goes on, at the step it waits at, as the operation in flight does. -/
theorem resumeAfterWaiting : Obligations.ResumeAfterWaiting := by
  intro i s t xs ys hphase h hbusy hys
  have hextend : s.withInputs (xs ++ ys) = (s.withInputs xs).extend ys := rfl
  have hwait := runOf_eq_wait h hbusy
  have hinputs := runOf_waits i (s := s.withInputs xs) hphase
  rw [hwait] at hinputs
  have hrest : t.extend ys = t.withInputs ys := by rw [State.extend, hinputs.1]; rfl
  rw [hextend, exec_eq_runOf, runOf_extend i (s := s.withInputs xs) hphase hys, hwait, exec_eq_runOf, ← hrest]
  rfl

end Sys2Proof.Machine
end

section
/-! PROOFS. The steps at which an operation can wait (`waitsAt`) are its steps that ask (10_state.md R24; log 11). -/

namespace Sys2Proof.Machine

/-! ## Flags by number -/

/-- The flag with number `k` says that the step asks. -/
def AsksAt (bs : List Bool) (k : Nat) : Prop := bs[k]? = some true

theorem asksAt_nil (k : Nat) : AsksAt [] k ↔ False := by simp [AsksAt]

theorem asksAt_append (a b : List Bool) (k : Nat) :
    AsksAt (a ++ b) k ↔ AsksAt a k ∨ a.length ≤ k ∧ AsksAt b (k - a.length) := by
  unfold AsksAt
  rcases Nat.lt_or_ge k a.length with hk | hk
  · simp [List.getElem?_append_left hk, Nat.not_le.mpr hk]
  · simp [List.getElem?_append_right hk, hk]

theorem asksAt_cons (b : Bool) (bs : List Bool) (k : Nat) :
    AsksAt (b :: bs) k ↔ k = 0 ∧ b = true ∨ 1 ≤ k ∧ AsksAt bs (k - 1) := by
  cases k <;> simp [AsksAt]

theorem asksAt_allAsk (n k : Nat) : AsksAt (allAsk n) k ↔ k < n := by
  simp [AsksAt, List.getElem?_replicate]

/-- The steps of a single-wire read that ask. -/
theorem asksAt_readFlags (k : Nat) : AsksAt readFlags k ↔
    (5 ≤ k ∧ k ≤ 7) ∨ (9 ≤ k ∧ k ≤ 168 ∧ (k - 9) % 4 ≠ 1) := by
  have hsmall : ∀ k < 171, readFlags[k]? = some true ↔
      (5 ≤ k ∧ k ≤ 7) ∨ (9 ≤ k ∧ k ≤ 168 ∧ (k - 9) % 4 ≠ 1) := by decide +kernel
  have hlength : readFlags.length = 171 := by decide +kernel
  rcases Nat.lt_or_ge k 171 with hk | hk
  · exact hsmall k hk
  · rw [AsksAt, List.getElem?_eq_none (hlength ▸ hk)]
    simp
    omega

/-- `waitsAt` numbers the steps that ask, from 1. -/
theorem waitsAt_iff (i : Instr) (s : State) (p : Nat) :
    waitsAt i s p = true ↔ 1 ≤ p ∧ AsksAt (askFlags i s) (p - 1) := by
  have hread : (6 ≤ p && p ≤ 8) || (10 ≤ p && p ≤ 169 && (p - 10) % 4 ≠ 1) ↔ 1 ≤ p ∧ AsksAt readFlags (p - 1) := by
    rw [asksAt_readFlags]
    simp only [Bool.or_eq_true, Bool.and_eq_true, decide_eq_true_eq]
    omega
  cases i with
  | swReadT | swReadH => exact hread
  | swSetCal | rfOnRecv => simp [waitsAt, askFlags, asksAt_cons, asksAt_nil]
  | _ =>
    simp only [waitsAt, askFlags, asksAt_append, asksAt_cons, asksAt_nil, asksAt_allAsk,
      List.length_append, List.length_replicate, List.length_cons, List.length_nil, Bool.or_eq_true, Bool.and_eq_true,
      decide_eq_true_eq, Bool.false_eq_true, and_true, and_false, or_false, false_or]
    omega

end Sys2Proof.Machine
end

section
/-! PROOFS. Steps that keep a property of the registers (42_display.md R233; 43_radio.md R270): a property that looks at
the operand registers, the display and the radio only, but for the pending bit, is kept by the outside, and each kind of
step keeps it if its register change does. -/

namespace Sys2Proof.Machine

/-! ## What the outside keeps -/

/-- `Q` looks at the configuration, the host registers, the display and the radio but for the pending bit. -/
def OfRegisters (Q : State → Prop) : Prop :=
  ∀ s t : State, t.cfg = s.cfg → t.host = s.host → t.dsp = s.dsp → t.rf = s.rf.butPending t.rf.rxpend → Q s → Q t

/-- The operation is in flight and `Q` holds. -/
def InFlight (Q : State → Prop) (s : State) : Prop := s.seq.busy = true ∧ Q s

section
variable {Q : State → Prop} (hQ : OfRegisters Q) {E : State → Prop} (hE : ∀ t, t.AtReset → E t)
include hQ hE

theorem stable_inFlight : Stable (InFlight Q) E where
  pass {s rest} _ h := ⟨h.1, hQ s _ rfl rfl rfl rfl h.2⟩
  ext {s e rest} _ hr h := by
    rw [← resetBy_withInputs s rest] at hr
    obtain ⟨hcfg, -, -, hdsp, hrf, hseq, -⟩ := external_frame (s.withInputs rest) e hr
    have hbusy : (s.withInputs rest).seq.busy = true := h.1
    exact ⟨by rw [hseq]; exact h.1, hQ s _ hcfg (external_busy_host _ e hr hbusy) hdsp hrf h.2⟩
  reset {s e rest} _ hr _ := by
    rw [← resetBy_withInputs s rest] at hr
    obtain ⟨b, rfl, hreset⟩ := external_of_reset hr
    rw [hreset]
    exact hE _ (State.afterReset_atReset _ b)
  phase {s} h := ⟨h.1, hQ s _ rfl rfl rfl rfl h.2⟩

end

/-! ## The kinds of step -/

/-- After step `m` from `P` SEQ goes on at the next step with `Q`, or the operation is over with `E`; while the step
waits `P` stays. -/
def Takes (P Q E : State → Prop) (m : MicroStep) : Prop :=
  ∀ t, P t → (m t).Post (fun k u => k = 0 ∧ Q u) E P

section
variable {Q Q' : State → Prop} (hQ : OfRegisters Q) {E : State → Prop} (hE : ∀ t, t.AtReset → E t)
include hQ

theorem inFlight_record {s : State} (h : InFlight Q s) (l : List Input) (p : Prim) (a : Answer) :
    InFlight Q ((s.withInputs l).record p a) := ⟨h.1, hQ s _ rfl rfl rfl rfl h.2⟩

theorem takes_perform {prim : State → Prim} {f : State → State} (hf : ∀ t, InFlight Q t → InFlight Q' (f t)) :
    Takes (InFlight Q) (InFlight Q') E (perform prim f) :=
  fun t ht => ⟨rfl, hf _ (inFlight_record hQ ht t.env.inputs _ _)⟩

include hE

theorem takes_ask {prim : State → Prim} {k : Answer → State → Stepped}
    (hk : ∀ a t, InFlight Q t → (k a t).Post (fun k u => k = 0 ∧ InFlight Q' u) E (InFlight Q)) :
    Takes (InFlight Q) (InFlight Q') E (ask prim k) :=
  fun _ ht => serve_post (reply := fun a t => .leave (k a t)) (stable_inFlight hQ hE).toUndisturbed (fun _ h => h)
    (fun _ hu => hk _ _ (inFlight_record hQ hu _ _ _)) ht

/-- An access that stores its data with `f`; `E` holds of the state that raises. -/
theorem takes_twAccess {prim : State → Prim} {info : Byte} {f : BitVec 24 → State → State}
    (hf : ∀ d t, InFlight Q t → InFlight Q' (f d t)) (hraise : ∀ t, InFlight Q t → E (t.raise (.busError info))) :
    Takes (InFlight Q) (InFlight Q') E (twAccess prim info f) := by
  refine takes_ask hQ hE fun a t ht => ?_
  split
  · exact ⟨rfl, hf a.data t ht⟩
  · exact hraise t ht

theorem takes_spiStep {byte : State → Byte} {f : State → State} (hf : ∀ t, InFlight Q t → InFlight Q' (f t)) :
    Takes (InFlight Q) (InFlight Q') E (spiStep byte f) :=
  takes_ask hQ hE fun _ t ht => ⟨rfl, hf t ht⟩

end

section
variable {P Q E : State → Prop}

theorem takes_act {f : State → State} (hf : ∀ t, P t → Q (f t)) : Takes P Q E (act f) := fun t ht => ⟨rfl, hf t ht⟩

theorem takes_finish {f : State → State} (hf : ∀ t, P t → E (f t).done) : Takes P Q E (finish f) := hf

/-- A guard that finds nothing leaves the state as it is. -/
theorem takes_guardStep {g : State → Option Cause} (hgo : ∀ t, P t → g t = none → Q t)
    (hraise : ∀ t c, P t → g t = some c → E (t.raise c)) : Takes P Q E (guardStep g) := by
  intro t ht
  cases h : g t with
  | none =>
    rw [guardStep_none h]
    exact ⟨rfl, hgo t ht h⟩
  | some c =>
    rw [guardStep_some h]
    exact hraise t c ht h

theorem takes_needsInit {flag : State → Bool} {u : Byte} (hgo : ∀ t, P t → flag t = true → Q t)
    (hraise : ∀ t c, P t → E (t.raise c)) : Takes P Q E (needsInit flag u) := by
  refine takes_guardStep (fun t ht h => hgo t ht ?_) fun t c ht _ => hraise t c ht
  by_contra hunset
  rw [if_neg hunset] at h
  cases h

/-! ## Lists of steps -/

variable {W : State → Prop} {G : Nat → State → Prop}

/-- A first step and the rest. -/
theorem Takes.cons {m : MicroStep} {ms : List MicroStep} (hm : Takes P Q E m) (hs : Stable P E) (hQ : Stable Q E)
    (hW : ∀ t, P t → W t) (hms : ∀ t, Q t → (runSteps ms 0 t).Post G E W) {s : State} (h : P s) :
    (runSteps (m :: ms) 0 s).Post G E W := by
  refine runSteps_cons_post hs (fun {t} ht => (hm t ht).imp ?_ (fun _ hu => hu) hW) h
  rintro k u ⟨rfl, hu⟩
  exact hms _ (hQ.phase hu)

/-- A list of steps that keep `P`. -/
theorem runSteps_takes (hs : Stable P E) {ms : List MicroStep} (hms : ∀ m ∈ ms, Takes P P E m) {s : State} (h : P s) :
    (runSteps ms 0 s).Post (fun k t => k = 0 ∧ P t) E P := by
  induction ms generalizing s with
  | nil => exact ⟨rfl, h⟩
  | cons m ms ih =>
    exact (hms m List.mem_cons_self).cons hs hs (fun _ => id)
      (fun t ht => ih (fun m' hm' => hms m' (List.mem_cons_of_mem m hm')) ht) h

end

/-! ## The display -/

/-- R211, R233: the display registers between operations. -/
structure Ftr.Ready (d : Ftr) : Prop where
  geometry : 1 ≤ d.width.toNat ∧ d.width.toNat ≤ 128 ∧ 8 ≤ d.height.toNat ∧ d.height.toNat ≤ 64 ∧
    d.height.toNat % 8 = 0
  fb : d.fb.WellFormed 1024
  length : d.fbLen.toNat = d.width.toNat * d.height.toNat / 8 ∨ (d.fbLen = 0 ∧ d.init = false)

/-- The same with `FBLEN` computed. -/
structure Ftr.Sized (d : Ftr) : Prop extends Ftr.Ready d where
  sized : d.fbLen.toNat = d.width.toNat * d.height.toNat / 8

theorem Ftr.Ready.sized_of_init {d : Ftr} (h : d.Ready) (hinit : d.init = true) : d.Sized :=
  ⟨h, h.length.resolve_right fun hunset => Bool.false_ne_true (hunset.2.symm.trans hinit)⟩

theorem geometryLength_of_geometry {d : Ftr} (h : d.Ready) :
    (geometryLength d.width d.height).toNat = d.width.toNat * d.height.toNat / 8 ∧
      d.width.toNat * d.height.toNat / 8 ≤ 1024 := by
  obtain ⟨-, hwidth, -, hheight, -⟩ := h.geometry
  have hproduct : d.width.toNat * d.height.toNat ≤ 128 * 64 := Nat.mul_le_mul hwidth hheight
  have hmax : d.width.toNat * d.height.toNat / 8 ≤ 1024 := by omega
  exact ⟨geometryLength_toNat hmax, hmax⟩

theorem ready_of_atReset (t : State) (h : t.AtReset) : t.dsp.Ready := by
  obtain ⟨-, -, -, hgeometry, hfb, hlength, -⟩ := inv_of_atReset h
  refine ⟨hgeometry, hfb, hlength.imp_right fun hunset => ⟨hunset.1, hunset.2.1⟩⟩

theorem ofRegisters_dsp (D : Ftr → Prop) : OfRegisters fun s => D s.dsp :=
  fun _ _ _ _ hdsp _ h => (congrArg D hdsp).mpr h

theorem stable_sized : Stable (InFlight fun s => s.dsp.Sized) fun t => t.dsp.Ready :=
  stable_inFlight (ofRegisters_dsp Ftr.Sized) ready_of_atReset

/-- The steps of FTR after those that check and set the registers. -/
def displayBody (i : Instr) (c : DspConfig) : List MicroStep :=
  match i with
  | .dspInit => initListSteps c ++ clearAndFlush ++ [finish fun s => { s with dsp := { s.dsp with init := true } }]
  | .dspClear => clearAndFlush ++ [finish id]
  | _ => flushSteps ++ [finish id]

section
variable {Q E : State → Prop} (hQ : OfRegisters Q) (hE : ∀ t, t.AtReset → E t)
  (hraise : ∀ t k, InFlight Q t → E (t.raise (.busError k)))
include hQ hE hraise

theorem takes_dspCmd {byte : State → Byte} {k : Byte} : Takes (InFlight Q) (InFlight Q) E (dspCmd byte k) :=
  takes_twAccess hQ hE (fun _ _ h => h) fun t => hraise t k

theorem takes_flushSteps : ∀ m ∈ flushSteps, Takes (InFlight Q) (InFlight Q) E m := by
  have hcmd {byte : State → Byte} {k : Byte} := takes_dspCmd hQ hE hraise (byte := byte) (k := k)
  simp only [flushSteps, List.forall_mem_cons]
  exact ⟨hcmd, hcmd, hcmd, hcmd, hcmd, hcmd, takes_twAccess hQ hE (fun _ _ h => h) fun t => hraise t 0x46,
    fun _ h => nomatch h⟩

theorem takes_initListSteps (c : DspConfig) : ∀ m ∈ initListSteps c, Takes (InFlight Q) (InFlight Q) E m := by
  intro m hm
  obtain ⟨e, -, rfl⟩ := List.mem_map.mp hm
  exact takes_dspCmd hQ hE hraise

/-- A property that a cleared frame keeps and the end leaves. -/
theorem takes_displayBody (hclear : ∀ t, InFlight Q t → InFlight Q (clearFrame t)) (hdone : ∀ t, InFlight Q t → E t.done)
    (hinit : ∀ t, InFlight Q t → E { t with dsp := { t.dsp with init := true } }.done) (i : Instr) (c : DspConfig) :
    ∀ m ∈ displayBody i c, Takes (InFlight Q) (InFlight Q) E m := by
  have hflush := takes_flushSteps hQ hE hraise
  have hcleared : ∀ m ∈ clearAndFlush, Takes (InFlight Q) (InFlight Q) E m :=
    List.forall_mem_cons.mpr ⟨takes_act hclear, hflush⟩
  have hlast : ∀ m ∈ [finish id], Takes (InFlight Q) (InFlight Q) E m :=
    List.forall_mem_singleton.mpr (takes_finish hdone)
  cases i with
  | dspInit =>
    exact List.forall_mem_append.mpr ⟨List.forall_mem_append.mpr ⟨takes_initListSteps hQ hE hraise c, hcleared⟩,
      List.forall_mem_singleton.mpr (takes_finish hinit)⟩
  | dspClear => exact List.forall_mem_append.mpr ⟨hcleared, hlast⟩
  | _ => exact List.forall_mem_append.mpr ⟨hflush, hlast⟩

end

theorem sized_clearFrame {s : State} (h : s.dsp.Sized) : (clearFrame s).dsp.Sized := by
  obtain ⟨hlength, hmax⟩ := geometryLength_of_geometry h.toReady
  exact ⟨⟨h.geometry, Memory.zeroFill_wellFormed h.fb (hlength ▸ hmax), .inl hlength⟩, hlength⟩

/-- The steps of FTR keep the display registers in order. -/
theorem sized_displayBody (i : Instr) (c : DspConfig) : ∀ m ∈ displayBody i c,
    Takes (InFlight fun s => s.dsp.Sized) (InFlight fun s => s.dsp.Sized) (fun t => t.dsp.Ready) m :=
  takes_displayBody (ofRegisters_dsp Ftr.Sized) ready_of_atReset (fun _ _ h => h.2.toReady)
    (fun _ h => ⟨h.1, sized_clearFrame h.2⟩) (fun _ h => h.2.toReady)
    (fun _ h => ⟨h.2.geometry, h.2.fb, .inl h.2.sized⟩) i c

/-- How many steps come before them. -/
def displayChecks : Instr → Nat
  | .dspInit => 2
  | .dspClear => 1
  | .dspShowStr => 4
  | .dspShowNum => 5
  | _ => 0

theorem programOf_display {i : Instr} (hi : i.isFtr = true) (s : State) :
    (programOf i s).drop (displayChecks i) = displayBody i s.cfg.dsp := by
  cases i with
  | dspInit | dspClear | dspShowStr | dspShowNum => simp [programOf, displayChecks, displayBody, dspInitSteps,
      dspClearSteps, dspShowStrSteps, dspShowNumSteps, textSteps]
  | _ => cases hi

/-- The steps that are left of an operation of FTR in flight. -/
theorem runSteps_display_resumed {i : Instr} (hi : i.isFtr = true) {s : State} (hs : InFlight (fun s => s.dsp.Sized) s)
    {n : Nat} (hn : displayChecks i ≤ n) :
    (runSteps ((programOf i s).drop n) 0 s).Post (fun _ t => t.dsp.Ready) (fun t => t.dsp.Ready)
      (fun t => t.dsp.Sized) := by
  have hbody := fun m (hm : m ∈ (programOf i s).drop n) =>
    sized_displayBody i s.cfg.dsp m (programOf_display hi s ▸ List.drop_subset_drop_left _ hn hm)
  exact (runSteps_takes stable_sized hbody hs).imp (fun _ _ ht => ht.2.2.toReady) (fun _ ht => ht) fun _ ht => ht.2

/-! ## The checks of FTR -/

/-- The operand registers and the display are still those of `s`. -/
def SameDisplay (s t : State) : Prop := t.host = s.host ∧ t.dsp = s.dsp

theorem ofRegisters_sameDisplay (s : State) : OfRegisters (SameDisplay s) :=
  fun _ _ _ hhost hdsp _ h => ⟨hhost.trans h.1, hdsp.trans h.2⟩

theorem stable_sameDisplay (s : State) : Stable (InFlight (SameDisplay s)) fun t => t.dsp.Ready :=
  stable_inFlight (ofRegisters_sameDisplay s) ready_of_atReset

section
variable {s : State} (hs : s.dsp.Ready)
include hs

/-- A guard that looks at these registers, and what follows it. -/
theorem runSteps_displayGuard {g : State → Option Cause} (hg : ∀ t, SameDisplay s t → g t = g s) {ms : List MicroStep}
    {G : Nat → State → Prop} {W : State → Prop}
    (hms : g s = none → ∀ t, InFlight (SameDisplay s) t → (runSteps ms 0 t).Post G (fun t => t.dsp.Ready) W) {t : State}
    (ht : InFlight (SameDisplay s) t) : (runSteps (guardStep g :: ms) 0 t).Post G (fun t => t.dsp.Ready) W := by
  refine runSteps_cons_post (stable_sameDisplay s) (fun {u} hu => ?_) ht
  cases hcause : g u with
  | none =>
    rw [guardStep_none hcause]
    exact hms (hg u hu.2 ▸ hcause) _ ((stable_sameDisplay s).phase hu)
  | some c =>
    rw [guardStep_some hcause]
    exact (congrArg Ftr.Ready hu.2.2).mpr hs

/-- The unit guard, and what follows it. -/
theorem runSteps_displayInit {u : Byte} {ms : List MicroStep} {G : Nat → State → Prop} {W : State → Prop}
    (hms : s.dsp.Sized → ∀ t, InFlight (SameDisplay s) t → (runSteps ms 0 t).Post G (fun t => t.dsp.Ready) W) {t : State}
    (ht : InFlight (SameDisplay s) t) :
    (runSteps (needsInit (fun t => t.dsp.init) u :: ms) 0 t).Post G (fun t => t.dsp.Ready) W := by
  refine runSteps_displayGuard hs (fun t ht => by simp only [ht.2]) (fun hset t ht => hms (hs.sized_of_init ?_) t ht) ht
  by_contra hunset
  rw [if_neg hunset] at hset
  cases hset

end

/-- The text drawn is inside the framebuffer. -/
theorem sized_drawText {s : State} (hs : s.dsp.Sized) (hfits : s.textFits = none) : (drawText s).dsp.Sized := by
  obtain ⟨-, hmax⟩ := geometryLength_of_geometry hs.toReady
  have hinside : s.text = [] ∨ s.textStart + 6 * (s.text.length - 1) + 4 < 1024 := by
    rw [← List.length_eq_zero_iff, text_length]
    unfold State.textFits at hfits
    split at hfits
    · cases hfits
    · have := hs.sized
      omega
  exact ⟨⟨hs.geometry, blit_wellFormed _ hs.fb _ _ hinside, hs.length⟩, hs.sized⟩

section
variable {s : State}

/-- The steps of a text. -/
theorem runSteps_textSteps_sized (hs : s.dsp.Sized) {t : State} (ht : InFlight (SameDisplay s) t) :
    (runSteps textSteps 0 t).Post (fun _ t => t.dsp.Ready) (fun t => t.dsp.Ready) (fun t => t.dsp.Sized) := by
  have hcheck {u : State} (hu : SameDisplay s u) : u.textFits = s.textFits := by
    rw [State.textFits, State.textFits, State.textStart, State.textStart, hu.1, hu.2]
  refine runSteps_displayGuard hs.toReady (fun _ => hcheck) (fun hfits t ht => ?_) ht
  refine runSteps_cons_post (stable_sameDisplay s) (fun {u} hu => ?_) ht
  cases hglyphs : u.textGlyphs with
  | some c =>
    rw [guardStep_some hglyphs]
    exact (congrArg Ftr.Ready hu.2.2).mpr hs.toReady
  | none =>
    rw [guardStep_none hglyphs]
    refine runSteps_cons_post (stable_sameDisplay s) (fun {v} hv => ?_) ((stable_sameDisplay s).phase hu)
    have hdrawn : (drawText v).dsp.Sized :=
      sized_drawText ((congrArg Ftr.Sized hv.2.2).mpr hs) ((hcheck hv.2).trans hfits)
    exact (runSteps_takes stable_sized (sized_displayBody .dspShowStr s.cfg.dsp)
      (stable_sized.phase (s := drawText v) ⟨hv.1, hdrawn⟩)).imp (fun _ _ hw => hw.2.2.toReady) (fun _ hw => hw) fun _ hw => hw.2

theorem sized_setGeometry {s : State} (hs : s.dsp.Ready) (hok : displayOperands s.operands = none) :
    (setGeometry s).dsp.Sized := by
  have hlegal : s.operands.displayOk = true := by
    by_contra hbad
    rw [displayOperands_of_not_ok (Bool.eq_false_iff.mpr hbad)] at hok
    cases hok
  obtain ⟨hwidth, hheight, -⟩ := (displayOk_iff _).mp hlegal
  obtain ⟨hw, hh⟩ := setGeometry_toNat hlegal
  obtain ⟨-, hmax⟩ := setGeometry_bounds hlegal
  simp only [State.operands] at hwidth hheight
  have hlength : (setGeometry s).dsp.fbLen.toNat =
      (setGeometry s).dsp.width.toNat * (setGeometry s).dsp.height.toNat / 8 := geometryLength_toNat hmax
  exact ⟨⟨by omega, hs.fb, .inl hlength⟩, hlength⟩

/-- An operation of FTR from its first step. -/
theorem runSteps_display_started {i : Instr} (hi : i.isFtr = true) (hs : s.dsp.Ready) (hbusy : s.seq.busy = true) :
    (runSteps (programOf i s) 0 s).Post (fun _ t => t.dsp.Ready) (fun t => t.dsp.Ready) (fun t => t.dsp.Sized) := by
  have hself : InFlight (SameDisplay s) s := ⟨hbusy, rfl, rfl⟩
  have hbody (i : Instr) {t : State} (ht : InFlight (fun s => s.dsp.Sized) t) :
      (runSteps (displayBody i s.cfg.dsp) 0 t).Post (fun _ t => t.dsp.Ready) (fun t => t.dsp.Ready)
        (fun t => t.dsp.Sized) :=
    (runSteps_takes stable_sized (sized_displayBody i s.cfg.dsp) ht).imp (fun _ _ hw => hw.2.2.toReady)
      (fun _ hw => hw) fun _ hw => hw.2
  cases i with
  | dspInit =>
    have hsteps : programOf .dspInit s = guardStep (fun s => displayOperands s.operands) :: act setGeometry ::
        displayBody .dspInit s.cfg.dsp := by simp [programOf, displayBody, dspInitSteps]
    rw [hsteps]
    refine runSteps_displayGuard hs (fun t ht => by rw [State.operands, State.operands, ht.1]) (fun hok t ht => ?_) hself
    refine runSteps_cons_post (stable_sameDisplay s) (fun {u} hu => ?_) ht
    refine hbody .dspInit (stable_sized.phase (s := setGeometry u) ⟨hu.1, ?_⟩)
    exact sized_setGeometry ((congrArg Ftr.Ready hu.2.2).mpr hs) (by rw [State.operands, hu.2.1]; exact hok)
  | dspClear =>
    exact runSteps_displayInit hs (fun hsized t ht => hbody .dspClear ⟨ht.1, (congrArg Ftr.Sized ht.2.2).mpr hsized⟩)
      hself
  | dspShowStr => exact runSteps_displayInit hs (fun hsized t ht => runSteps_textSteps_sized hsized ht) hself
  | dspShowNum =>
    refine runSteps_displayInit hs (fun hsized t ht => ?_) hself
    refine runSteps_cons_post (stable_sameDisplay s) (fun {u} hu => ?_) ht
    exact runSteps_textSteps_sized (s := formatNumber u) ((congrArg Ftr.Sized hu.2.2).mpr hsized) ⟨hu.1, rfl, rfl⟩
  | _ => cases hi

end

end Sys2Proof.Machine
end

section
/-! PROOFS. The radio's mode (43_radio.md R253, R270): while `RF.INIT` or `RF.SEND` runs it is not `UNKNOWN` once
initialised, and every way to their end goes over a write of Standby. -/

namespace Sys2Proof.Machine

/-! ## The radio registers -/

/-- The mode is not `UNKNOWN` once initialised. -/
def Rfc.Known (r : Rfc) : Prop := r.init = true → r.mode ≠ .unknown

/-- R270: the radio registers between operations. -/
structure Rfc.Settled (r : Rfc) : Prop where
  mode : r.mode = .unknown ∨ r.mode = .standby
  known : r.Known

theorem settled_of_standby {r : Rfc} (h : r.mode = .standby) : r.Settled :=
  ⟨.inr h, fun _ => h ▸ RfMode.noConfusion⟩

theorem settled_of_atReset (t : State) (h : t.AtReset) : t.rf.Settled := by
  obtain ⟨-, -, -, -, -, hrf⟩ := h
  rw [hrf]
  exact ⟨.inl rfl, Bool.noConfusion⟩

theorem ofRegisters_known : OfRegisters fun s => s.rf.Known := by
  intro s t _ _ _ hrf h
  rw [hrf]
  exact h

theorem ofRegisters_mode (m : RfMode) : OfRegisters fun s => s.rf.mode = m := by
  intro s t _ _ _ hrf h
  rw [hrf]
  exact h

theorem ofRegisters_settled : OfRegisters fun s => s.rf.Settled := by
  intro s t _ _ _ hrf h
  rw [hrf]
  exact ⟨h.mode, h.known⟩

/-- In flight, and the mode is not `UNKNOWN` once initialised. -/
abbrev ModeKnown : State → Prop := InFlight fun s => s.rf.Known

/-- In flight, in Standby. -/
abbrev InStandby : State → Prop := InFlight fun s => s.rf.mode = .standby

theorem stable_modeKnown : Stable ModeKnown fun t => t.rf.Settled :=
  stable_inFlight ofRegisters_known settled_of_atReset

theorem stable_settled : Stable (InFlight fun s => s.rf.Settled) fun t => t.rf.Settled :=
  stable_inFlight ofRegisters_settled settled_of_atReset

theorem stable_inStandby : Stable InStandby fun t => t.rf.Settled :=
  stable_inFlight (ofRegisters_mode .standby) settled_of_atReset

/-! ## The steps -/

section
variable {Q E : State → Prop} (hQ : OfRegisters Q) (hE : ∀ t, t.AtReset → E t)
include hQ

theorem takes_delayMs {n : State → Nat} : Takes (InFlight Q) (InFlight Q) E (delayMsStep n) :=
  takes_perform hQ fun _ h => h

include hE

theorem takes_byte {byte : State → Byte} : Takes (InFlight Q) (InFlight Q) E (spiStep byte id) :=
  takes_spiStep hQ hE fun _ h => h

theorem takes_rfWrite {reg : State → RfReg} {v : State → Byte} :
    ∀ m ∈ rfWrite reg v id, Takes (InFlight Q) (InFlight Q) E m :=
  List.forall_mem_cons.mpr ⟨takes_byte hQ hE, List.forall_mem_singleton.mpr (takes_byte hQ hE)⟩

theorem takes_rfWriteAll (l : List (RfReg × Byte)) :
    ∀ m ∈ rfWriteAll l, Takes (InFlight Q) (InFlight Q) E m := by
  intro m hm
  obtain ⟨rv, -, hm⟩ := List.mem_flatMap.mp hm
  exact takes_rfWrite hQ hE m hm

theorem takes_setMode {mode : RfMode}
    (hmode : ∀ t, InFlight Q t → InFlight Q { t with rf := { t.rf with mode := mode } }) :
    ∀ m ∈ setMode mode, Takes (InFlight Q) (InFlight Q) E m :=
  List.forall_mem_cons.mpr ⟨takes_byte hQ hE, List.forall_mem_singleton.mpr (takes_spiStep hQ hE hmode)⟩

end

/-- One list after the other. -/
theorem takes_append {P E : State → Prop} {a b : List MicroStep} (ha : ∀ m ∈ a, Takes P P E m)
    (hb : ∀ m ∈ b, Takes P P E m) : ∀ m ∈ a ++ b, Takes P P E m := List.forall_mem_append.mpr ⟨ha, hb⟩

/-- Step `m` keeps `Q`, and leaves the radio settled if it ends the operation. -/
abbrev TakesRadio (Q : State → Prop) (m : MicroStep) : Prop :=
  Takes (InFlight Q) (InFlight Q) (fun t => t.rf.Settled) m

/-- The address byte of a mode write. -/
def modeAddressStep : MicroStep := spiStep (fun s => writeAddress s.cfg.rf.regOpMode) id

/-- The second byte of the write of Standby. -/
def standbyStep : MicroStep :=
  spiStep (fun s => modeValue s.cfg.rf .standby) fun s => { s with rf := { s.rf with mode := .standby } }

theorem setMode_standby : setMode .standby = [modeAddressStep, standbyStep] := rfl

theorem takes_standbyStep {Q : State → Prop} (hQ : OfRegisters Q) :
    Takes (InFlight Q) InStandby (fun t => t.rf.Settled) standbyStep :=
  takes_spiStep hQ settled_of_atReset fun _ h => ⟨h.1, rfl⟩

/-- How an operation of RFC leaves its run: settled, unless it waits. -/
abbrev Stepped.RadioPost (r : Stepped) : Prop :=
  r.Post (fun _ t => t.rf.Settled) (fun t => t.rf.Settled) (fun t => t.rf.Known)

/-- Steps before the write of Standby, and steps after it that keep it. -/
theorem runSteps_standby {a b : List MicroStep} (ha : ∀ m ∈ a, TakesRadio (fun s => s.rf.Known) m)
    (hb : ∀ m ∈ b, TakesRadio (fun s => s.rf.mode = .standby) m) {s : State} (hs : ModeKnown s) :
    (runSteps (a ++ standbyStep :: b) 0 s).RadioPost := by
  refine runSteps_append_post ((runSteps_takes stable_modeKnown ha hs).imp ?_ (fun _ ht => ht) fun _ ht => ht.2)
  rintro k t ⟨rfl, ht⟩
  refine (takes_standbyStep ofRegisters_known).cons stable_modeKnown stable_inStandby (fun _ hu => hu.2)
    (fun u hu => ?_) ht
  exact (runSteps_takes stable_inStandby hb hu).imp (fun _ _ hv => settled_of_standby hv.2.2) (fun _ hv => hv)
    fun _ hv => (settled_of_standby hv.2).known

/-- The same from one of the steps up to that write. -/
theorem runSteps_drop_standby {a b : List MicroStep} (ha : ∀ m ∈ a, TakesRadio (fun s => s.rf.Known) m)
    (hb : ∀ m ∈ b, TakesRadio (fun s => s.rf.mode = .standby) m) {n : Nat} (hn : n ≤ a.length) {s : State}
    (hs : ModeKnown s) : (runSteps ((a ++ standbyStep :: b).drop n) 0 s).RadioPost := by
  rw [List.drop_append_of_le_length hn]
  exact runSteps_standby (fun m hm => ha m (List.mem_of_mem_drop hm)) hb hs

/-! ## `RF.INIT` -/

/-- The steps of `RF.INIT` before the write of Standby. -/
def initBeforeStandby (c : RfConfig) : List MicroStep :=
  setMode .sleep
  ++ [delayMsStep fun s => s.cfg.rf.delay1Ms, act fun s => { s with rf.frf := frequencyWord s.host.arg0 }]
  ++ rfWrite (fun s => s.cfg.rf.regFrfMsb) (fun s => s.rf.frf.extractLsb' 16 8) id
  ++ rfWrite (fun s => s.cfg.rf.regFrfMid) (fun s => s.rf.frf.extractLsb' 8 8) id
  ++ rfWrite (fun s => s.cfg.rf.regFrfLsb) (fun s => s.rf.frf.extractLsb' 0 8) id
  ++ rfWriteAll c.modemWrites
  ++ rfWrite (fun s => s.cfg.rf.regPaConfig) (fun s => s.cfg.rf.paValue) id
  ++ rfWriteAll c.preambleWrites
  ++ rfWrite (fun s => s.cfg.rf.regSyncWord) (fun s => s.cfg.rf.syncWord) id
  ++ [modeAddressStep]

theorem rfInitSteps_standby (c : RfConfig) : rfInitSteps c = initBeforeStandby c ++ standbyStep ::
    [delayMsStep fun s => s.cfg.rf.delay2Ms, finish fun s => { s with rf := { s.rf with init := true } }] := by
  simp [rfInitSteps, initBeforeStandby, setMode_standby]

theorem length_initBeforeStandby (c : RfConfig) :
    (initBeforeStandby c).length = 15 + 2 * (c.modemWrites.length + c.preambleWrites.length) := by
  simp only [initBeforeStandby, setMode, rfWrite, List.length_append, length_rfWriteAll, List.length_cons,
    List.length_nil]
  omega

/-- A property that the mode and the frequency do not enter. -/
theorem takes_initBeforeStandby {Q E : State → Prop} (hQ : OfRegisters Q) (hE : ∀ t, t.AtReset → E t)
    (hmode : ∀ t, InFlight Q t → InFlight Q { t with rf := { t.rf with mode := .sleep } })
    (hfrequency : ∀ t f, InFlight Q t → InFlight Q { t with rf := { t.rf with frf := f } }) (c : RfConfig) :
    ∀ m ∈ initBeforeStandby c, Takes (InFlight Q) (InFlight Q) E m := by
  have hwrite {reg : State → RfReg} {v : State → Byte} := takes_rfWrite (reg := reg) (v := v) hQ hE
  have hall := takes_rfWriteAll hQ hE
  have hword : ∀ m ∈ [delayMsStep fun s => s.cfg.rf.delay1Ms,
      act fun s => { s with rf := { s.rf with frf := frequencyWord s.host.arg0 } }], Takes (InFlight Q) (InFlight Q) E m :=
    List.forall_mem_cons.mpr ⟨takes_delayMs hQ, List.forall_mem_singleton.mpr (takes_act fun t h => hfrequency t _ h)⟩
  have hlast : ∀ m ∈ [modeAddressStep], Takes (InFlight Q) (InFlight Q) E m :=
    List.forall_mem_singleton.mpr (takes_byte hQ hE)
  exact takes_append (takes_append (takes_append (takes_append (takes_append (takes_append (takes_append (takes_append
    (takes_append (takes_setMode hQ hE hmode) hword) hwrite) hwrite) hwrite) (hall _)) hwrite) (hall _)) hwrite) hlast

theorem radio_initBeforeStandby (c : RfConfig) : ∀ m ∈ initBeforeStandby c, TakesRadio (fun s => s.rf.Known) m :=
  takes_initBeforeStandby ofRegisters_known settled_of_atReset (fun _ h => ⟨h.1, fun _ => RfMode.noConfusion⟩)
    (fun _ _ h => h) c

/-- `RF.INIT` from its start or from a step at which it can wait. -/
theorem runSteps_rfInit_settled {c : RfConfig} {n : Nat}
    (hn : n ≤ 15 + 2 * (c.modemWrites.length + c.preambleWrites.length)) {s : State} (hs : ModeKnown s) :
    (runSteps ((rfInitSteps c).drop n) 0 s).RadioPost := by
  rw [rfInitSteps_standby]
  refine runSteps_drop_standby (radio_initBeforeStandby c) (List.forall_mem_cons.mpr ⟨takes_delayMs (ofRegisters_mode _),
    List.forall_mem_singleton.mpr (takes_finish fun t ht => ?_)⟩) (by rw [length_initBeforeStandby]; exact hn) hs
  exact settled_of_standby ht.2

/-! ## `RF.SEND` -/

/-- The steps after the poll, of which the last three follow a poll that expires. -/
theorem afterPoll_eq : afterTxDone ++ afterTxTimeout =
    (rfWrite (fun s => s.cfg.rf.regIrqFlags) (fun _ => 0xFF) id ++ [modeAddressStep]) ++ standbyStep ::
      (finish id :: modeAddressStep :: standbyStep :: [guardStep fun _ => some (.timeout 0xC0)]) := by
  simp [afterTxDone, afterTxTimeout, setMode_standby]

theorem standby_guard {g : State → Option Cause} : TakesRadio (fun s => s.rf.mode = .standby) (guardStep g) :=
  takes_guardStep (fun _ h _ => h) fun _ _ h _ => settled_of_standby h.2

/-- After a poll that saw the flag. -/
theorem runSteps_afterPoll_settled {n : Nat} (hn : n ≤ 3) {s : State} (hs : ModeKnown s) :
    (runSteps ((afterTxDone ++ afterTxTimeout).drop n) 0 s).RadioPost := by
  rw [afterPoll_eq]
  refine runSteps_drop_standby (takes_append (takes_rfWrite ofRegisters_known settled_of_atReset)
    (List.forall_mem_singleton.mpr (takes_byte ofRegisters_known settled_of_atReset))) ?_ hn hs
  have hmode := ofRegisters_mode .standby
  simp only [List.forall_mem_cons]
  exact ⟨takes_finish fun _ h => settled_of_standby h.2, takes_byte hmode settled_of_atReset, takes_standbyStep hmode, standby_guard,
    fun _ h => nomatch h⟩

/-- After a poll that expired. -/
theorem runSteps_afterTimeout_settled {n : Nat} (hn : n ≤ 1) {s : State} (hs : ModeKnown s) :
    (runSteps (afterTxTimeout.drop n) 0 s).RadioPost :=
  runSteps_drop_standby (a := [modeAddressStep]) (b := [guardStep fun _ => some (.timeout 0xC0)])
    (List.forall_mem_singleton.mpr (takes_byte ofRegisters_known settled_of_atReset)) (List.forall_mem_singleton.mpr standby_guard) hn hs

/-- The poll goes on at one of the two. -/
theorem waitTxDone_known {s : State} (hs : ModeKnown s) :
    (waitTxDone s).Post (fun k t => (k = 0 ∨ k = afterTxDone.length) ∧ ModeKnown t) (fun t => t.rf.Settled)
      ModeKnown := by
  rw [waitTxDone_eq_decideOrAsk, decideOrAsk]
  cases hexit : pollExit s with
  | some r =>
    unfold pollExit at hexit
    split at hexit
    · cases hexit
      exact ⟨.inr rfl, hs⟩
    · cases hexit
  | none =>
    refine serve_post stable_modeKnown.toUndisturbed (fun _ h => h) (fun {t raw rest} _ ht => ?_) hs
    have ht' := inFlight_record ofRegisters_known ht rest (pollPrim t) ((pollPrim t).returns raw)
    cases hr : pollAnswer ((pollPrim t).returns raw) ((t.withInputs rest).record (pollPrim t) ((pollPrim t).returns raw)) with
    | again u =>
      obtain ⟨⟨mid, n, rfl⟩, -⟩ := pollAnswer_again hr
      exact ⟨rfl, ht'⟩
    | leave r =>
      obtain ⟨k, hk, rfl⟩ := pollAnswer_leave hr
      exact ⟨hk, ht'⟩

theorem runSteps_poll_settled {s : State} (hs : ModeKnown s) :
    (runSteps (waitTxDone :: (afterTxDone ++ afterTxTimeout)) 0 s).RadioPost := by
  refine runSteps_cons_post stable_modeKnown (fun {t} ht => (waitTxDone_known ht).imp ?_ (fun _ hu => hu)
    fun _ hu => hu.2) hs
  rintro k u ⟨rfl | rfl, hu⟩
  · exact runSteps_afterPoll_settled (Nat.zero_le 3) (stable_modeKnown.phase hu)
  · rw [runSteps_passOver _ _ _ (by simp), List.drop_left]
    exact runSteps_afterTimeout_settled (Nat.zero_le 1) ⟨hu.1, hu.2⟩

/-- A property that the mode does not enter. -/
theorem takes_packetSteps {Q E : State → Prop} (hQ : OfRegisters Q) (hE : ∀ t, t.AtReset → E t)
    (hmode : ∀ t mode, mode ≠ .unknown → InFlight Q t → InFlight Q { t with rf := { t.rf with mode := mode } })
    (payload : List Byte) : ∀ m ∈ packetSteps payload, Takes (InFlight Q) (InFlight Q) E m := by
  have hwrite {reg : State → RfReg} {v : State → Byte} := takes_rfWrite (reg := reg) (v := v) hQ hE
  have hset {mode : RfMode} (h : mode ≠ .unknown) := takes_setMode hQ hE fun t => hmode t mode h
  refine takes_append (takes_append (takes_append (takes_append (takes_append (takes_append
    (hset RfMode.noConfusion) hwrite) hwrite) hwrite) hwrite) fun m hm => ?_) (hset RfMode.noConfusion)
  obtain ⟨b, -, hm⟩ := List.mem_flatMap.mp hm
  exact hwrite m hm

theorem radio_packetSteps (payload : List Byte) : ∀ m ∈ packetSteps payload, TakesRadio (fun s => s.rf.Known) m :=
  takes_packetSteps ofRegisters_known settled_of_atReset (fun _ _ hm h => ⟨h.1, fun _ => hm⟩) payload

theorem runSteps_packet_settled {payload : List Byte} {n : Nat} (hn : n ≤ (packetSteps payload).length) {s : State}
    (hs : ModeKnown s) :
    (runSteps ((packetSteps payload ++ waitTxDone :: (afterTxDone ++ afterTxTimeout)).drop n) 0 s).RadioPost := by
  rw [List.drop_append_of_le_length hn]
  have hpacket : ∀ m ∈ (packetSteps payload).drop n, TakesRadio (fun s => s.rf.Known) m :=
    fun m hm => radio_packetSteps payload m (List.mem_of_mem_drop hm)
  refine runSteps_append_post ((runSteps_takes stable_modeKnown hpacket hs).imp ?_ (fun _ ht => ht) fun _ ht => ht.2)
  rintro k t ⟨rfl, ht⟩
  exact runSteps_poll_settled ht

/-- `RF.SEND` from its start, with the radio settled. -/
theorem runSteps_rfSend_started {payload : List Byte} {s : State} (hs : InFlight (fun s => s.rf.Settled) s) :
    (runSteps (rfSendSteps payload) 0 s).RadioPost := by
  rw [rfSendSteps_eq]
  refine (takes_guardStep (fun _ h _ => h) fun _ _ h _ => h.2).cons stable_settled stable_settled (fun _ h => h.2.known)
    (fun t ht => ?_) hs
  refine (takes_needsInit (fun _ h _ => h) fun _ _ h => h.2).cons stable_settled stable_settled (fun _ h => h.2.known)
    (fun t ht => ?_) ht
  exact runSteps_packet_settled (Nat.zero_le _) ⟨ht.1, ht.2.known⟩

/-- The steps after the checks, by number. -/
theorem rfSendSteps_drop (payload : List Byte) {p : Nat} (hp : 3 ≤ p) : (rfSendSteps payload).drop (p - 1) =
    (packetSteps payload ++ waitTxDone :: (afterTxDone ++ afterTxTimeout)).drop (p - 3) := by
  have hcount : p - 1 = p - 3 + 2 := by omega
  rw [rfSendSteps_eq, hcount]
  rfl

/-- The steps after the poll, by number. -/
theorem packetSteps_drop (payload : List Byte) {n : Nat} (hn : (packetSteps payload).length < n) :
    (packetSteps payload ++ waitTxDone :: (afterTxDone ++ afterTxTimeout)).drop n =
      (afterTxDone ++ afterTxTimeout).drop (n - 1 - (packetSteps payload).length) := by
  have hcount : n = (packetSteps payload).length + (n - 1 - (packetSteps payload).length + 1) := by omega
  conv_lhs => rw [hcount]
  rw [List.drop_length_add_append, List.drop_succ_cons]

/-- `RF.SEND` from a step at which it can wait. -/
theorem runSteps_rfSend_resumed {payload : List Byte} {p : Nat} (hp : 3 ≤ p)
    (hplace : p ≤ 19 + 2 * payload.length ∨ p = 21 + 2 * payload.length ∨ p = 22 + 2 * payload.length) {s : State}
    (hs : ModeKnown s) : (runSteps ((rfSendSteps payload).drop (p - 1)) 0 s).RadioPost := by
  have hlength := length_packetSteps payload
  rw [rfSendSteps_drop payload hp]
  rcases Nat.lt_or_ge (packetSteps payload).length (p - 3) with hlate | hearly
  · rw [packetSteps_drop payload hlate]
    rcases hplace with hplace | hplace
    · exact runSteps_afterPoll_settled (by omega) hs
    · have hdone : p - 3 - 1 - (packetSteps payload).length =
          afterTxDone.length + (p - 21 - 2 * payload.length) := by
        have : afterTxDone.length = 5 := rfl
        omega
      rw [hdone, List.drop_length_add_append]
      exact runSteps_afterTimeout_settled (by omega) hs
  · exact runSteps_packet_settled hearly hs

end Sys2Proof.Machine
end

section
/-! PROOFS. The invariant (42_display.md R233; 43_radio.md R270; 10_state.md R24; 70_reset_and_hazards.md R321) is kept by
every step: what a step leaves of the display and the radio, and where an operation in flight stands. -/

namespace Sys2Proof.Machine

/-! ## What the invariant says -/

theorem running_of_idle {s : State} (h : s.seq.busy = false) : s.running = none := by
  rw [State.running, h]
  rfl

theorem running_of_busy {s : State} {i : Instr} (h : s.seq.busy = true) (hop : s.seq.op = opcodeOf i) :
    s.running = some i := by
  rw [State.running, h, hop, instrOfOpcode_opcodeOf]
  rfl

section
variable {s : State} (hs : s.Inv)
include hs

theorem ready_of_inv : s.dsp.Ready := by
  obtain ⟨-, -, -, hgeometry, hfb, hlength, -⟩ := hs
  exact ⟨hgeometry, hfb, hlength.imp_right fun hunset => ⟨hunset.1, hunset.2.1⟩⟩

theorem sized_of_inv {i : Instr} (hbusy : s.seq.busy = true) (hop : s.seq.op = opcodeOf i) (hi : i.isFtr = true) :
    s.dsp.Sized := by
  refine ⟨ready_of_inv hs, ?_⟩
  obtain ⟨-, -, -, -, -, hlength, -⟩ := hs
  refine hlength.resolve_right fun hunset => ?_
  obtain ⟨-, -, hnone⟩ := hunset
  rw [running_of_busy hbusy hop, Option.any_some, hi] at hnone
  cases hnone

theorem known_of_inv : s.rf.Known := by
  obtain ⟨-, -, -, -, -, -, -, hknown⟩ := hs
  exact hknown

theorem settled_of_inv (hradio : s.radioRunning = false) : s.rf.Settled := by
  refine ⟨?_, known_of_inv hs⟩
  obtain ⟨-, -, -, -, -, -, hmode, -⟩ := hs
  exact hmode hradio

theorem waitsAt_of_inv {i : Instr} (hbusy : s.seq.busy = true) (hop : s.seq.op = opcodeOf i) :
    waitsAt i s s.seq.phase = true := by
  obtain ⟨-, -, hplace, -⟩ := hs
  have hat := hplace hbusy
  rwa [hop, instrOfOpcode_opcodeOf, Option.any_some] at hat

end

theorem settled_of_idle {s : State} (hs : s.Inv) (hidle : s.idle) : s.rf.Settled :=
  settled_of_inv hs (by rw [State.radioRunning, running_of_idle hidle]; rfl)

/-- The invariant of an idle ESPB. -/
theorem inv_of_idle {s : State} (hcanonical : s.Canonical) (hrst : s.env.rst = true → s.AtReset)
    (hidle : s.seq.busy = false) (hdsp : s.dsp.Ready) (hrf : s.rf.Settled) : s.Inv :=
  ⟨hcanonical, hrst, fun hbusy => absurd (hidle.symm.trans hbusy) Bool.false_ne_true, hdsp.geometry, hdsp.fb,
    hdsp.length.imp_right fun hunset => ⟨hunset.1, hunset.2, by rw [running_of_idle hidle]; rfl⟩, fun _ => hrf.mode,
    hrf.known⟩

/-- The invariant while operation `i` is in flight. -/
theorem inv_of_busy {s : State} {i : Instr} (hcanonical : s.Canonical) (hrst : s.env.rst = false)
    (hbusy : s.seq.busy = true) (hop : s.seq.op = opcodeOf i) (hplace : waitsAt i s s.seq.phase = true)
    (hdsp : s.dsp.Ready) (hsized : i.isFtr = true → s.dsp.Sized) (hknown : s.rf.Known)
    (hsettled : i.isRfc = false → s.rf.Settled) : s.Inv := by
  refine ⟨hcanonical, fun hheld => absurd (hrst.symm.trans hheld) Bool.false_ne_true, fun _ => ?_, hdsp.geometry, hdsp.fb,
    ?_, fun hradio => ?_, hknown⟩
  · rwa [hop, instrOfOpcode_opcodeOf, Option.any_some]
  · cases hi : i.isFtr with
    | true => exact .inl (hsized hi).sized
    | false =>
      refine hdsp.length.imp_right fun hunset => ⟨hunset.1, hunset.2, ?_⟩
      rw [running_of_busy hbusy hop, Option.any_some, hi]
  · refine (hsettled ?_).mode
    rw [State.radioRunning, running_of_busy hbusy hop] at hradio
    cases i with
    | rfOnRecv => cases hplace
    | rfInit | rfSend => cases hradio
    | _ => rfl

/-! ## The display and the radio after a run -/

theorem Stepped.Post.and {G G' : Nat → State → Prop} {E E' W W' : State → Prop} {r : Stepped} (h : r.Post G E W)
    (h' : r.Post G' E' W') : r.Post (fun k t => G k t ∧ G' k t) (fun t => E t ∧ E' t) (fun t => W t ∧ W' t) := by
  cases r <;> exact ⟨h, h'⟩

theorem Closes.registers {ok : Cause → Prop} {s t : State} (h : Closes ok s t) :
    (t.dsp = s.dsp ∧ t.rf = s.rf) ∨ t.AtReset := by
  cases h with
  | raised c hc => exact .inl ⟨rfl, rfl⟩
  | finished r0 r1 => exact .inl ⟨rfl, rfl⟩
  | reset e rest hin hr =>
    obtain ⟨b, rfl, hreset⟩ := external_of_reset (s := s.withInputs rest) (by rwa [resetBy_withInputs])
    rw [hreset]
    exact .inr (State.afterReset_atReset _ b)

theorem Rfc.Settled.butPending {r : Rfc} (h : r.Settled) (b : Bool) : (r.butPending b).Settled := ⟨h.mode, h.known⟩

section
variable {i : Instr} {s : State}

/-- Another unit's operation leaves the display. -/
theorem runOf_display_of_other (hi : i.isFtr = false) (hs : s.dsp.Ready) :
    (s.runOf i).Post (fun _ t => t.dsp.Ready) (fun t => t.dsp.Ready) (fun t => t.dsp.Ready) := by
  obtain ⟨q, hq, -⟩ := underway_eq s (opcodeOf i)
  have hpost := runOf_post i s
  rw [hq] at hpost
  have hsame {t : State} (ht : Advance i { s with seq := q } t) : t.dsp.Ready := by
    rw [ht.dsp hi]
    exact hs
  refine hpost.imp (fun _ _ ht => hsame ht.2) ?_ fun _ ht => hsame ht.2
  rintro t ⟨u, hu, hcloses⟩
  rcases hcloses.registers with ⟨hdsp, -⟩ | hreset
  · rw [hdsp]
    exact hsame hu
  · exact ready_of_atReset t hreset

/-- Another unit's operation leaves the radio. -/
theorem runOf_radio_of_other (hi : i.isRfc = false) (hs : s.rf.Settled) :
    (s.runOf i).Post (fun _ t => t.rf.Settled) (fun t => t.rf.Settled) (fun t => t.rf.Settled) := by
  obtain ⟨q, hq, -⟩ := underway_eq s (opcodeOf i)
  have hpost := runOf_post i s
  rw [hq] at hpost
  have hsame {t : State} (ht : Advance i { s with seq := q } t) : t.rf.Settled := by
    rw [ht.rf hi]
    exact hs.butPending _
  refine hpost.imp (fun _ _ ht => hsame ht.2) ?_ fun _ ht => hsame ht.2
  rintro t ⟨u, hu, hcloses⟩
  rcases hcloses.registers with ⟨-, hrf⟩ | hreset
  · rw [hrf]
    exact hsame hu
  · exact settled_of_atReset t hreset

theorem runOf_of_idle (hidle : s.idle) :
    s.runOf i = runSteps (programOf i (s.start (opcodeOf i))) 0 (s.start (opcodeOf i)) := by
  rw [State.runOf, underway_of_idle _ hidle]
  rfl

theorem runOf_of_busy (hbusy : s.seq.busy = true) :
    s.runOf i = runSteps ((programOf i s).drop (s.seq.phase - 1)) 0 s := by
  rw [State.runOf, underway_of_busy _ hbusy]

variable (hs : s.Inv) (hop : s.seq.busy = true → s.seq.op = opcodeOf i)
include hs hop

/-- An operation of FTR: its checks come before the first step at which it can wait. -/
theorem runOf_display (hi : i.isFtr = true) :
    (s.runOf i).Post (fun _ t => t.dsp.Ready) (fun t => t.dsp.Ready) (fun t => t.dsp.Sized) := by
  cases hbusy : s.seq.busy with
  | false =>
    rw [runOf_of_idle hbusy]
    exact runSteps_display_started (s := s.start (opcodeOf i)) hi (ready_of_inv (s := s) hs) rfl
  | true =>
    have hplace := waitsAt_of_inv hs hbusy (hop hbusy)
    have hchecks : displayChecks i ≤ s.seq.phase - 1 := by
      cases i <;> simp [displayChecks, waitsAt] at hplace ⊢ <;> omega
    rw [runOf_of_busy hbusy]
    exact runSteps_display_resumed hi ⟨hbusy, sized_of_inv hs hbusy (hop hbusy) hi⟩ hchecks

/-- An operation of RFC: the write of Standby comes after the last step at which it can wait. -/
theorem runOf_radio (hi : i.isRfc = true) : (s.runOf i).RadioPost := by
  cases hbusy : s.seq.busy with
  | false =>
    have hsettled := settled_of_idle hs hbusy
    have hstart : InFlight (fun s => s.rf.Settled) (s.start (opcodeOf i)) := ⟨rfl, hsettled⟩
    rw [runOf_of_idle hbusy]
    cases i with
    | rfInit => exact runSteps_rfInit_settled (Nat.zero_le _) ⟨rfl, hsettled.known⟩
    | rfSend => exact runSteps_rfSend_started hstart
    | rfOnRecv =>
      have hlast : Takes (InFlight fun s => s.rf.Settled) (InFlight fun s => s.rf.Settled) (fun t => t.rf.Settled)
          (finish fun s => { s with rf := { s.rf with rxie := true } }) := takes_finish fun _ h => ⟨h.2.mode, h.2.known⟩
      exact (runSteps_takes stable_settled (List.forall_mem_singleton.mpr hlast) hstart).imp
        (fun _ _ h => h.2.2) (fun _ h => h) fun _ h => h.2.known
    | _ => cases hi
  | true =>
    have hplace := waitsAt_of_inv hs hbusy (hop hbusy)
    rw [runOf_of_busy hbusy]
    cases i with
    | rfInit =>
      simp only [waitsAt, Bool.or_eq_true, Bool.and_eq_true, decide_eq_true_eq] at hplace
      exact runSteps_rfInit_settled (by omega) ⟨hbusy, known_of_inv hs⟩
    | rfSend =>
      simp only [waitsAt, Bool.or_eq_true, Bool.and_eq_true, decide_eq_true_eq] at hplace
      have hlength := text_length s
      exact runSteps_rfSend_resumed (by omega) (by omega) ⟨hbusy, known_of_inv hs⟩
    | rfOnRecv => cases hplace
    | _ => cases hi

/-- What an operation leaves of the display and the radio. -/
theorem runOf_registers :
    (s.runOf i).Post (fun _ t => t.dsp.Ready ∧ t.rf.Settled) (fun t => t.dsp.Ready ∧ t.rf.Settled)
      (fun t => (t.dsp.Ready ∧ (i.isFtr = true → t.dsp.Sized)) ∧ t.rf.Known ∧ (i.isRfc = false → t.rf.Settled)) := by
  have hdisplay : (s.runOf i).Post (fun _ t => t.dsp.Ready) (fun t => t.dsp.Ready)
      (fun t => t.dsp.Ready ∧ (i.isFtr = true → t.dsp.Sized)) := by
    cases hi : i.isFtr with
    | true => exact (runOf_display hs hop hi).imp (fun _ _ h => h) (fun _ h => h) fun _ h => ⟨h.toReady, fun _ => h⟩
    | false =>
      exact (runOf_display_of_other hi (ready_of_inv hs)).imp (fun _ _ h => h) (fun _ h => h)
        fun _ h => ⟨h, fun hftr => Bool.noConfusion hftr⟩
  have hradio : (s.runOf i).Post (fun _ t => t.rf.Settled) (fun t => t.rf.Settled)
      (fun t => t.rf.Known ∧ (i.isRfc = false → t.rf.Settled)) := by
    cases hi : i.isRfc with
    | true =>
      exact (runOf_radio hs hop hi).imp (fun _ _ h => h) (fun _ h => h) fun _ h => ⟨h, fun hrfc => Bool.noConfusion hrfc⟩
    | false =>
      have hquiet : s.radioRunning = false := by
        cases hbusy : s.seq.busy with
        | false => rw [State.radioRunning, running_of_idle hbusy]; rfl
        | true =>
          rw [State.radioRunning, running_of_busy hbusy (hop hbusy)]
          cases i with
          | rfInit | rfSend | rfOnRecv => cases hi
          | _ => rfl
      exact (runOf_radio_of_other hi (settled_of_inv hs hquiet)).imp (fun _ _ h => h) (fun _ h => h)
        fun _ h => ⟨h.known, fun _ => h⟩
  exact hdisplay.and hradio

end

/-! ## Where an operation waits -/

/-- The flags are the same all along. -/
theorem Advance.askFlags_eq {i : Instr} {s t : State} (h : Advance i s t) : askFlags i t = askFlags i s := by
  unfold askFlags
  rw [h.cfg]
  cases i with
  | rfSend => rw [(h.text Instr.noConfusion).1]
  | _ => rfl

theorem waitsAt_of_wait {i : Instr} {s t : State} (hphase : s.seq.busy = true → 1 ≤ s.seq.phase)
    (h : s.runOf i = .wait t) : waitsAt i t t.seq.phase = true := by
  have hwaits := runOf_waits i hphase
  rw [h] at hwaits
  obtain ⟨-, ⟨-, hadvance⟩, hplace, hflag⟩ := hwaits
  rw [waitsAt_iff, hadvance.askFlags_eq]
  exact ⟨(underway_phase (opcodeOf i) hphase).trans hplace, hflag⟩

theorem underway_op {s : State} {i : Instr} (hop : s.seq.busy = true → s.seq.op = opcodeOf i) :
    (s.underway (opcodeOf i)).seq.op = opcodeOf i := by
  unfold State.underway
  split
  · rename_i hbusy
    exact hop hbusy
  · rfl

/-- SEQ at a step has a number. -/
theorem phase_pos_of_inv {s : State} (hs : s.Inv) (hbusy : s.seq.busy = true) : 1 ≤ s.seq.phase := by
  obtain ⟨-, -, hplace, -⟩ := hs
  obtain ⟨i, -, hat⟩ := Option.any_eq_true _ _ |>.mp (hplace hbusy)
  exact ((waitsAt_iff i s _).mp hat).1

/-! ## The steps -/

/-- A state whose operation is over. -/
theorem inv_of_over {i : Instr} {ok : Cause → Prop} {s t : State} (h : Concludes i ok s t) (hs : s.Orderly)
    (hrst : s.env.rst = false) (hdsp : t.dsp.Ready) (hrf : t.rf.Settled) : t.Inv := by
  have hcanonical := outcome_canonical (.inr h) hs
  obtain ⟨u, hu, hcloses⟩ := h
  refine inv_of_idle hcanonical (fun hheld => ?_) hcloses.over.1 hdsp hrf
  have hurst : u.env.rst = false := hu.rst.trans hrst
  cases hcloses with
  | raised c hc => exact absurd (hurst.symm.trans hheld) Bool.false_ne_true
  | finished r0 r1 => exact absurd (hurst.symm.trans hheld) Bool.false_ne_true
  | reset e rest hin hr =>
    obtain ⟨b, rfl, hreset⟩ := external_of_reset (s := u.withInputs rest) (by rwa [resetBy_withInputs])
    rw [hreset]
    exact State.afterReset_atReset _ b

theorem underway_rst (s : State) (opc : Byte) : (s.underway opc).env.rst = s.env.rst := by
  obtain ⟨q, hq, -⟩ := underway_eq s opc
  rw [hq]

theorem exec_inv {i : Instr} {s t : State} (hs : s.Inv) (hrst : s.env.rst = false)
    (hop : s.seq.busy = true → s.seq.op = opcodeOf i) (h : exec i s = .next t) : t.Inv := by
  have horderly := underway_orderly (opcodeOf i) ((canonical_iff s).mp hs.1).1
  have hrst' := (underway_rst s (opcodeOf i)).trans hrst
  have hregisters := runOf_registers hs hop
  have hpost := runOf_post i s
  rw [exec_eq_runOf, Host.Outcome.next.injEq] at h
  subst h
  cases hr : s.runOf i with
  | go k u =>
    rw [hr] at hregisters hpost
    exact inv_of_over (ok := fun _ => True) ⟨u, hpost.2, .finished u.host.ret0 u.host.ret1⟩ horderly hrst' hregisters.1
      hregisters.2
  | ended u =>
    rw [hr] at hregisters hpost
    exact inv_of_over hpost horderly hrst' hregisters.1 hregisters.2
  | wait u =>
    have hplace := waitsAt_of_wait (phase_pos_of_inv hs) hr
    rw [hr] at hregisters hpost
    obtain ⟨⟨hready, hsized⟩, hknown, hsettled⟩ := hregisters
    exact inv_of_busy (outcome_canonical (ok := fun _ => True) (.inl hpost) horderly) (hpost.2.rst.trans hrst') hpost.1
      (hpost.2.op.trans (underway_op hop)) hplace hready hsized hknown hsettled

/-- What an idle ESPB receives keeps the invariant. -/
theorem Received.inv {s t : State} (h : Received s t) (hs : s.Inv) (hidle : s.idle) (hrst : s.env.rst = false) :
    t.Inv := by
  cases h with
  | nothing => exact hs
  | taken rest => exact hs
  | acted rest e =>
    cases hr : (s.withInputs rest).resetBy e with
    | true =>
      obtain ⟨b, rfl, hreset⟩ := external_of_reset hr
      rw [hreset]
      exact inv_of_atReset (State.afterReset_atReset _ b)
    | false =>
      obtain ⟨-, -, -, hdsp, hrf, hseq, -, -, -, hrst'⟩ := external_frame (s.withInputs rest) e hr
      refine inv_of_idle ((Received.acted rest e).canonical hs.1) (fun hheld => ?_) (by rw [hseq]; exact hidle) ?_ ?_
      · exact absurd ((hrst'.trans hrst).symm.trans hheld) Bool.false_ne_true
      · rw [hdsp]
        exact ready_of_inv hs
      · rw [hrf]
        exact (settled_of_idle hs hidle).butPending _

/-- An illegal command is over at once. -/
theorem illegalCommand_concludes {s : State} (hidle : s.idle) (low : Byte) :
    Concludes .swSetCal (fun _ => True) (s.underway low) (s.illegalCommand low) := by
  have hpost : (runSteps [guardStep fun _ => some (.illegalCommand low)] 0 (s.start low)).Post (fun _ _ => False)
      (Concludes .swSetCal (fun _ => True) (s.start low)) (fun _ => False) := by
    refine runSteps_cons_post (stable_reached .swSetCal (fun _ => True) (s.start low)) (fun {t} ht => ?_)
      ⟨rfl, Advance.refl _ _⟩
    exact ht.conclude (ok := fun _ => True) ⟨t, Advance.refl _ t, .raised (.illegalCommand low) trivial⟩
  rw [State.illegalCommand, launch_idle _ _ _ hidle, underway_of_idle low hidle]
  cases hr : runSteps [guardStep fun _ => some (.illegalCommand low)] 0 (s.start low) with
  | go k t => rw [hr] at hpost; exact hpost.elim
  | ended t => rw [hr] at hpost; exact hpost
  | wait t => rw [hr] at hpost; exact hpost.elim

/-- It leaves the display and the radio. -/
theorem illegalCommand_inv {s : State} (hs : s.Inv) (hidle : s.idle) (hrst : s.env.rst = false) (low : Byte) :
    (s.illegalCommand low).Inv := by
  have hover := illegalCommand_concludes hidle low
  have hready := ready_of_inv hs
  have horderly := underway_orderly low ((canonical_iff s).mp hs.1).1
  obtain ⟨q, hq, -⟩ := underway_eq s low
  have hregisters : (s.illegalCommand low).dsp.Ready ∧ (s.illegalCommand low).rf.Settled := by
    obtain ⟨u, hu, hcloses⟩ := hover
    rw [hq] at hu
    rcases hcloses.registers with ⟨hdsp, hrf⟩ | hreset
    · rw [hdsp, hrf, hu.dsp rfl, hu.rf rfl]
      exact ⟨hready, (settled_of_idle hs hidle).butPending _⟩
    · exact ⟨ready_of_atReset _ hreset, settled_of_atReset _ hreset⟩
  exact inv_of_over hover horderly ((underway_rst s low).trans hrst) hregisters.1 hregisters.2

/-- Settles O48: one case for each thing a step can be. -/
theorem stepKeepsInv : Obligations.StepKeepsInv := by
  intro s t hs h
  refine step_keeps (P := State.Inv) (fun u hu hrst => ?_) (fun u v hu hrst hidle hv => hv.inv hu hidle hrst)
    (fun i u v hu hrst hop hv => exec_inv hu hrst hop hv) (fun u low hu hrst hnone => ?_) hs h
  · obtain ⟨-, hatReset, -⟩ := hu
    exact inv_of_atReset (held_frame u (hatReset hrst)).1
  · refine illegalCommand_inv hu (Bool.eq_false_iff.mpr fun hbusy => ?_) hrst low
    obtain ⟨-, -, hplace, -⟩ := hu
    rw [hnone hbusy] at hplace
    exact Bool.false_ne_true (hplace hbusy)

end Sys2Proof.Machine
end

section
/-! PROOFS. What comes first while an operation waits (20_memory.md R64, R66, R76; 70_reset_and_hazards.md R321): the step
at which it waits asks, so an outside action that is next lands there, whether it comes in its place or jumps in. -/

namespace Sys2Proof.Machine

/-! ## A step that asks, and the actions before it -/

/-- `φ` changes only what neither the inputs nor an outside action look at, and what a reset forgets. -/
structure Hidden (φ : State → State) : Prop where
  withInputs : ∀ s l, φ (s.withInputs l) = (φ s).withInputs l
  resetBy : ∀ s e, (φ s).resetBy e = s.resetBy e
  external : ∀ s e, s.resetBy e = false → (φ s).external e = φ (s.external e)
  reset : ∀ s e, s.resetBy e = true → (φ s).external e = s.external e

theorem hidden_id : Hidden id := ⟨fun _ _ => rfl, fun _ _ => rfl, fun _ _ _ => rfl, fun _ _ _ => rfl⟩

/-- What comes before a step that asks could as well come while it asks. -/
theorem absorb_then_serve {φ : State → State} (hφ : Hidden φ) (prim : State → Prim) (reply : Answer → State → Served)
    (s : State) :
    ((absorb s.env.inputs s).andThen fun _ t => serve prim reply t.env.inputs (φ t)) =
      serve prim reply s.env.inputs (φ s) := by
  generalize hl : s.env.inputs = l
  induction l generalizing s with
  | nil => exact congrArg (serve prim reply · (φ s)) hl
  | cons x rest ih =>
    cases x with
    | answer a => exact congrArg (serve prim reply · (φ s)) hl
    | ext e => exact congrArg (serve prim reply · (φ s)) hl
    | pass => exact congrArg (serve prim reply rest) (hφ.withInputs s rest)
    | early e =>
      rw [absorb_early, serve_external (.inr rfl), hφ.resetBy, ← hφ.withInputs]
      cases hr : s.resetBy e with
      | true => exact congrArg Stepped.ended (hφ.reset _ e (by rw [resetBy_withInputs, hr])).symm
      | false =>
        rw [hφ.external _ e (by rw [resetBy_withInputs, hr])]
        exact ih _ (by simp)

theorem Stepped.andThen_andThen (r : Stepped) (f g : Nat → State → Stepped) :
    (r.andThen f).andThen g = r.andThen fun k s => (f k s).andThen g := by
  cases r <;> rfl

theorem Stepped.andThen_congr {r : Stepped} {f g : Nat → State → Stepped}
    (h : r.Post (fun k s => f k s = g k s) (fun _ => True) fun _ => True) : r.andThen f = r.andThen g := by
  cases r with
  | go k s => exact h
  | ended s => rfl
  | wait s => rfl

/-- A step that always asks. -/
def Asks (m : MicroStep) : Prop := ∃ prim reply, ∀ s, m s = serve prim reply s.env.inputs s

theorem asks_ask (prim : State → Prim) (k : Answer → State → Stepped) : Asks (ask prim k) := ⟨_, _, fun _ => rfl⟩

/-- In a state with `C` the list asks first, after the hidden change `φ`. -/
structure AsksFirst (C : State → Prop) (φ : State → State) (ms : List MicroStep) : Prop where
  taken : ∀ {s : State} {rest : List Input}, C s → C (s.withInputs rest)
  external : ∀ {s : State} {e : External}, s.resetBy e = false → C s → C (s.external e)
  hidden : Hidden φ
  run : ∃ prim reply f, ∀ s, C s → runSteps ms 0 s = (serve prim reply s.env.inputs (φ s)).andThen f

/-- A list whose first step, with what it leads to, asks first. -/
theorem asksFirst_cons {C : State → Prop} {φ : State → State} {m : MicroStep} {ms : List MicroStep}
    {prim : State → Prim} {reply : Answer → State → Served} {f : Nat → State → Stepped} (hφ : Hidden φ)
    (htaken : ∀ {s : State} {rest : List Input}, C s → C (s.withInputs rest))
    (hexternal : ∀ {s : State} {e : External}, s.resetBy e = false → C s → C (s.external e))
    (hm : ∀ t, C t → ((m t).andThen fun k u => runSteps ms k u.nextPhase) =
      (serve prim reply t.env.inputs (φ t)).andThen f) : AsksFirst C φ (m :: ms) := by
  have hundisturbed : Undisturbed C fun _ => True :=
    ⟨fun _ h => htaken h, fun _ hr h => hexternal (by rw [resetBy_withInputs, hr]) (htaken h), fun _ _ _ => trivial⟩
  refine ⟨htaken, hexternal, hφ, prim, reply, f, fun s hs => ?_⟩
  rw [runSteps_cons_eq, ← absorb_then_serve hφ, Stepped.andThen_andThen]
  exact Stepped.andThen_congr ((absorb_post hundisturbed hs).imp (fun _ t ht => hm t ht.2) (fun _ _ => trivial)
    fun _ ht => ht.elim)

/-- A list that begins with a step that always asks. -/
theorem asksFirst_of_asks {m : MicroStep} (hm : Asks m) (ms : List MicroStep) :
    AsksFirst (fun _ => True) id (m :: ms) := by
  obtain ⟨prim, reply, hm⟩ := hm
  exact asksFirst_cons hidden_id (fun _ => trivial) (fun _ _ => trivial) fun t _ => by rw [hm t]; rfl

section
variable {C : State → Prop} {φ : State → State} {ms : List MicroStep} (h : AsksFirst C φ ms) {s : State}
  {e : External} {rest : List Input} (hin : s.env.inputs = .ext e :: rest ∨ s.env.inputs = .early e :: rest) (hs : C s)
include h hin hs

/-- The next input is an outside action. -/
theorem AsksFirst.run_external : runSteps ms 0 s =
    if s.resetBy e then .ended ((s.withInputs rest).external e) else runSteps ms 0 ((s.withInputs rest).external e) := by
  obtain ⟨prim, reply, f, hrun⟩ := h.run
  have hnext : ∃ x, (x = .ext e ∨ x = .early e) ∧ s.env.inputs = x :: rest :=
    hin.elim (fun hx => ⟨_, .inl rfl, hx⟩) fun hx => ⟨_, .inr rfl, hx⟩
  obtain ⟨x, hx, hin⟩ := hnext
  rw [hrun s hs, hin, serve_external hx, h.hidden.resetBy, ← h.hidden.withInputs]
  cases hr : s.resetBy e with
  | true => exact congrArg Stepped.ended (h.hidden.reset _ e (by rw [resetBy_withInputs, hr]))
  | false =>
    have hr' : (s.withInputs rest).resetBy e = false := by rw [resetBy_withInputs, hr]
    have hinputs : ((s.withInputs rest).external e).env.inputs = rest := by simp
    rw [h.hidden.external _ e hr']
    refine Eq.trans ?_ (hrun _ (h.external hr' (h.taken hs))).symm
    rw [hinputs]
    rfl

end

/-! ## The poll of `RF.SEND` at its bound -/

/-- SEQ goes over the steps that follow a poll that saw the flag. -/
def State.pastBound (s : State) : State :=
  { s with seq := { s.seq with polls := 0, phase := s.seq.phase + 1 + afterTxDone.length } }

theorem hidden_pastBound : Hidden State.pastBound where
  withInputs _ _ := rfl
  resetBy s e := by cases e <;> rfl
  external s e hr := by
    obtain ⟨-, -, -, -, -, hseq, -, hinputs, -⟩ := external_frame s e hr
    have hplaced : (s.external e).pastBound =
        (s.external e).placed (s.seq.phase + 1 + afterTxDone.length) 0 s.env.inputs := by
      have hphase : (s.external e).seq.phase = s.seq.phase := by rw [hseq]
      rw [State.pastBound, State.placed, hphase, ← hinputs]
    rw [hplaced, ← external_placed _ _ _ _ _ hr]
    rfl
  reset s e hr := by
    obtain ⟨b, rfl, hreset⟩ := external_of_reset hr
    rw [hreset]
    exact if_pos hr

/-- The poll of `s` stands at its bound. -/
def AtBound (s : State) : Prop := s.seq.midRead = false ∧ s.cfg.rf.pollMax = some s.seq.polls

theorem atBound_external {s : State} {e : External} (hr : s.resetBy e = false) (h : AtBound s) :
    AtBound (s.external e) := by
  obtain ⟨hcfg, -, -, -, -, hseq, -⟩ := external_frame s e hr
  unfold AtBound
  rwa [hcfg, hseq]

/-- Short of its bound the poll asks first. -/
theorem asksFirst_poll (ms : List MicroStep) : AsksFirst (fun s => ¬ AtBound s) id (waitTxDone :: ms) := by
  refine asksFirst_cons (prim := pollPrim) (reply := pollAnswer) (f := fun k u => runSteps ms k u.nextPhase) hidden_id
    (fun h => h) (fun {s e} hr h hbound => h ?_) fun t ht => ?_
  · obtain ⟨hcfg, -, -, -, -, hseq, -⟩ := external_frame s e hr
    unfold AtBound at hbound
    rwa [hcfg, hseq] at hbound
  · have hasks : waitTxDone t = serve pollPrim pollAnswer t.env.inputs t := if_neg ht
    rw [hasks]
    rfl

/-- The poll at its bound asks nothing: what asks first is the Standby write of its exit. -/
theorem asksFirst_atBound : AsksFirst AtBound State.pastBound (waitTxDone :: (afterTxDone ++ afterTxTimeout)) := by
  obtain ⟨-, -, -, prim, reply, f, hrun⟩ :=
    asksFirst_of_asks (asks_ask _ _ : Asks modeAddressStep) [standbyStep, guardStep fun _ => some (.timeout 0xC0)]
  refine asksFirst_cons (prim := prim) (reply := reply) (f := f) hidden_pastBound (fun h => h) atBound_external
    fun t ht => ?_
  have hskip : waitTxDone t = .go afterTxDone.length { t with seq := { t.seq with polls := 0 } } := if_pos ht
  rw [hskip, Stepped.andThen, runSteps_passOver _ _ _ (by simp), List.drop_left]
  exact hrun t.pastBound trivial

/-! ## The steps that are left of an operation that waits -/

theorem asks_of_fits {i : Instr} {m : MicroStep} (h : Fits i m true) (hi : i ≠ .rfSend) : Asks m := by
  cases h with
  | @asking exit prim reply hm h =>
    refine ⟨prim, reply, fun s => ?_⟩
    rw [hm, decideOrAsk, h.exit_none hi s]
    rfl

/-- A list at an asking step of a program. -/
theorem exists_cons_of_asksAt {i : Instr} {ms : List MicroStep} {bs : List Bool} (h : List.Forall₂ (Fits i) ms bs)
    {n : Nat} (hn : AsksAt bs n) : ∃ m later, ms.drop n = m :: later ∧ Fits i m true := by
  obtain ⟨hlt, hflag⟩ := List.getElem?_eq_some_iff.mp hn
  have hlt' : n < ms.length := h.length_eq ▸ hlt
  refine ⟨ms[n], ms.drop (n + 1), List.drop_eq_getElem_cons hlt', ?_⟩
  have hfits := h.get hlt' hlt
  simp only [List.get_eq_getElem] at hfits
  rwa [hflag] at hfits

/-- Each of the steps after the poll that asks. -/
theorem exists_cons_afterPoll {n : Nat} (hn : n ≤ 3 ∨ n = 5 ∨ n = 6) :
    ∃ m later, (afterTxDone ++ afterTxTimeout).drop n = m :: later ∧ Asks m := by
  have hcases : n = 0 ∨ n = 1 ∨ n = 2 ∨ n = 3 ∨ n = 5 ∨ n = 6 := by omega
  rcases hcases with rfl | rfl | rfl | rfl | rfl | rfl <;> exact ⟨_, _, rfl, asks_ask _ _⟩

/-- `RF.SEND` asks first, but at the bound of its poll. -/
theorem rfSend_asksFirst {s : State} {p : Nat} (hplace : waitsAt .rfSend s p = true) :
    ∃ C φ, AsksFirst C φ ((rfSendSteps s.text).drop (p - 1)) ∧ C s ∧ (φ = id ∨ AtBound s) := by
  have hlength : (packetSteps s.text).length = 12 + 2 * s.host.len.toNat := by rw [length_packetSteps, text_length]
  simp only [waitsAt, Bool.or_eq_true, Bool.and_eq_true, decide_eq_true_eq] at hplace
  rw [rfSendSteps_drop s.text (by omega)]
  rcases Nat.lt_trichotomy (p - 3) (packetSteps s.text).length with hearly | hpoll | hlate
  · have hasks : Asks (packetSteps s.text)[p - 3] :=
      asks_of_fits (fits_packetSteps (i := .rfInit) rfl s.text _ (List.getElem_mem hearly)) Instr.noConfusion
    rw [List.drop_append_of_le_length hearly.le, List.drop_eq_getElem_cons hearly, List.cons_append]
    exact ⟨_, _, asksFirst_of_asks hasks _, trivial, .inl rfl⟩
  · rw [hpoll, List.drop_left]
    by_cases hbound : AtBound s
    · exact ⟨_, _, asksFirst_atBound, hbound, .inr hbound⟩
    · exact ⟨_, _, asksFirst_poll _, hbound, .inl rfl⟩
  · rw [packetSteps_drop s.text hlate]
    obtain ⟨m, later, hdrop, hasks⟩ := exists_cons_afterPoll (n := p - 3 - 1 - (packetSteps s.text).length) (by omega)
    rw [hdrop]
    exact ⟨_, _, asksFirst_of_asks hasks _, trivial, .inl rfl⟩

/-- An operation that waits asks first. -/
theorem remaining_asksFirst {i : Instr} {s : State} {p : Nat} (hplace : waitsAt i s p = true) :
    ∃ C φ, AsksFirst C φ ((programOf i s).drop (p - 1)) ∧ C s ∧ (φ = id ∨ i = .rfSend ∧ AtBound s) := by
  by_cases hi : i = .rfSend
  · subst hi
    obtain ⟨C, φ, hasks, hs, hφ⟩ := rfSend_asksFirst hplace
    exact ⟨C, φ, hasks, hs, hφ.imp_right fun hbound => ⟨rfl, hbound⟩⟩
  · obtain ⟨m, later, hdrop, hfits⟩ := exists_cons_of_asksAt (programOf_fits i s) ((waitsAt_iff i s p).mp hplace).2
    rw [hdrop]
    exact ⟨_, _, asksFirst_of_asks (asks_of_fits hfits hi) later, trivial, .inl rfl⟩

/-! ## Reset -/

theorem exists_instr_of_inv {s : State} (hs : s.Inv) (hbusy : s.seq.busy = true) :
    ∃ i, instrOfOpcode s.seq.op = some i ∧ s.seq.op = opcodeOf i ∧ waitsAt i s s.seq.phase = true := by
  obtain ⟨-, -, hplace, -⟩ := id hs
  obtain ⟨i, hop, -⟩ := Option.any_eq_true _ _ |>.mp (hplace hbusy)
  have hopcode := eq_opcodeOf_of_instrOfOpcode hop
  exact ⟨i, hop, hopcode, waitsAt_of_inv hs hbusy hopcode⟩

/-- A step of an operation that waits is the run of its steps that are left. -/
theorem step_of_waiting {i : Instr} {s : State} (hrst : s.env.rst = false) (hbusy : s.seq.busy = true)
    (hop : instrOfOpcode s.seq.op = some i) :
    step s = .next (runSteps ((programOf i s).drop (s.seq.phase - 1)) 0 s).state := by
  rw [step_of_busy hrst hbusy hop, exec_eq_runOf, runOf_of_busy hbusy]

/-- Settles O16: idle, the reset is acted on; in flight, it lands in the step that asks. -/
theorem resetInput : Obligations.ResetInput := by
  intro s rest hs hrst hin
  cases hbusy : s.seq.busy with
  | false =>
    exact step_of_fetch_handled hbusy hrst (fetch_external (fun _ => External.noConfusion)
      (fun _ _ => External.noConfusion) hin)
  | true =>
    obtain ⟨i, hop, -, hplace⟩ := exists_instr_of_inv hs hbusy
    obtain ⟨C, φ, hasks, hC, -⟩ := remaining_asksFirst hplace
    rw [step_of_waiting hrst hbusy hop, hasks.run_external hin hC]
    rfl

/-- Settles O54: the step that asks takes the action and goes on asking. -/
theorem busyTakesOutsideActions : Obligations.BusyTakesOutsideActions := by
  intro s e rest hs hrst hbusy hin hr
  obtain ⟨i, hop, hopcode, hplace⟩ := exists_instr_of_inv hs hbusy
  obtain ⟨C, φ, hasks, hC, hφ⟩ := remaining_asksFirst hplace
  have hchange : Change i s ((s.withInputs rest).external e) := change_take_external hin hr hbusy
  have hbusy' : ((s.withInputs rest).external e).seq.busy = true := hchange.busy.trans hbusy
  have hafter : step ((s.withInputs rest).external e) =
      .next (runSteps ((programOf i s).drop (s.seq.phase - 1)) 0 ((s.withInputs rest).external e)).state := by
    rw [step_of_waiting (hchange.rst.trans hrst) hbusy' (by rw [hchange.op, hop]), hchange.programOf_eq, hchange.phase]
  have hstep : step s = step ((s.withInputs rest).external e) := by
    rw [step_of_waiting hrst hbusy hop, hafter, hasks.run_external hin hC, hr]
    rfl
  refine ⟨hstep, fun hrest hshort => ⟨?_, hrest ▸ hbusy'⟩⟩
  subst hrest
  have hnone : φ = id := hφ.resolve_right fun ⟨hi, hmid, hbound⟩ => by
    subst hi
    rcases hshort with h | h | h
    · exact h hopcode
    · exact Bool.false_ne_true (hmid.symm.trans h)
    · exact h hbound
  obtain ⟨prim, reply, f, hrun⟩ := hasks.run
  have hinputs : ((s.withInputs []).external e).env.inputs = [] := by simp
  rw [hstep, hafter, hrun _ (hasks.external (by rw [resetBy_withInputs, hr]) (hasks.taken hC)), hinputs, hnone]
  refine congrArg Host.Outcome.next (Eq.trans ?_ (State.withInputs_self _))
  rw [hinputs]
  rfl

end Sys2Proof.Machine
end

section
/-! PROOFS. The causes that are decided before the first event (60_exceptions.md R302): the steps that raise
`NotInitialized`, `UnsupportedGlyph` or `IllegalOperand` come first and take no input; no later step raises one. -/

namespace Sys2Proof.Machine

/-! ## The later steps -/

/-- `CODE` is none of the three. -/
def LateCause (t : State) : Prop :=
  ¬ (t.seq.cause.extractLsb 3 0 = 2 ∨ t.seq.cause.extractLsb 3 0 = 5 ∨ t.seq.cause.extractLsb 3 0 = 7)

theorem lateCause_of_zero {t : State} (h : t.seq.cause = 0) : LateCause t := by
  unfold LateCause
  rw [h]
  decide

theorem lateCause_raise (t : State) {c : Cause} (hc : ¬ (c.code = 2 ∨ c.code = 5 ∨ c.code = 7)) :
    LateCause (t.raise c) := by
  have hcode : (t.raise c).seq.cause.extractLsb 3 0 = c.code := c.word_code
  unfold LateCause
  rwa [hcode]

theorem lateCause_busError (t : State) (k : Byte) : LateCause (t.raise (.busError k)) := lateCause_raise t (by rw [Cause.code]; decide)

theorem lateCause_timeout (t : State) (k : Byte) : LateCause (t.raise (.timeout k)) := lateCause_raise t (by rw [Cause.code]; decide)

theorem lateCause_done (t : State) : LateCause t.done := lateCause_of_zero rfl

theorem lateCause_of_atReset (t : State) (h : t.AtReset) : LateCause t := by
  obtain ⟨hseq, -⟩ := h
  exact lateCause_of_zero (by rw [hseq]; rfl)

/-- The operation is in flight. -/
abbrev Running : State → Prop := InFlight fun _ => True

theorem ofRegisters_true : OfRegisters fun _ => True := fun _ _ _ _ _ _ _ => trivial

theorem stable_running : Stable Running LateCause := stable_inFlight ofRegisters_true lateCause_of_atReset

/-- Step `m` raises none of the three causes. -/
def Late (m : MicroStep) : Prop := ∀ t, Running t → (m t).Post (fun _ => Running) LateCause Running

theorem late_of_takes {m : MicroStep} (h : Takes Running Running LateCause m) : Late m :=
  fun t ht => (h t ht).imp (fun _ _ hu => hu.2) (fun _ hu => hu) fun _ hu => hu

theorem late_act {f : State → State} (hf : ∀ t, (f t).seq.busy = t.seq.busy := by intros; rfl) : Late (act f) :=
  late_of_takes (takes_act fun t ht => ⟨(hf t).trans ht.1, trivial⟩)

theorem late_perform {prim : State → Prim} {f : State → State}
    (hf : ∀ t, (f t).seq.busy = t.seq.busy := by intros; rfl) : Late (perform prim f) :=
  late_of_takes (takes_perform ofRegisters_true fun t ht => ⟨(hf t).trans ht.1, trivial⟩)

theorem late_finish {f : State → State} : Late (finish f) := late_of_takes (takes_finish fun t _ => lateCause_done (f t))

theorem late_twAccess {prim : State → Prim} {info : Byte} {f : BitVec 24 → State → State}
    (hf : ∀ d t, (f d t).seq.busy = t.seq.busy := by intros; rfl) : Late (twAccess prim info f) :=
  late_of_takes (takes_twAccess ofRegisters_true lateCause_of_atReset (fun d t ht => ⟨(hf d t).trans ht.1, trivial⟩)
    fun t _ => lateCause_busError t info)

theorem late_ask {prim : State → Prim} {k : Answer → State → Stepped}
    (hk : ∀ a t, Running t → (k a t).Post (fun _ => Running) LateCause Running) : Late (ask prim k) :=
  fun _ hs => serve_post (reply := fun a t => .leave (k a t)) stable_running.toUndisturbed (fun _ h => h)
    (fun _ ht => hk _ _ (inFlight_record ofRegisters_true ht _ _ _)) hs

theorem late_waitWhile (stay : Bool) (id : Byte) : Late (waitWhile stay id) := by
  intro s hs
  rw [waitWhile_eq]
  refine serve_post stable_running.toUndisturbed (fun _ h => h) (fun {t raw rest} _ ht => ?_) hs
  cases h : waitAnswer stay id ((Prim.pinRead t.pin).returns raw)
      ((t.withInputs rest).record (.pinRead t.pin) ((Prim.pinRead t.pin).returns raw)) with
  | again u =>
    rw [(waitAnswer_again h).1]
    exact ⟨rfl, ht⟩
  | leave r =>
    rcases waitAnswer_leave h with rfl | rfl
    · exact ht
    · exact lateCause_timeout _ _

theorem late_waitTxDone : Late waitTxDone := by
  intro s hs
  rw [waitTxDone_eq_decideOrAsk, decideOrAsk]
  cases hexit : pollExit s with
  | some r =>
    unfold pollExit at hexit
    split at hexit
    · cases hexit
      exact hs
    · cases hexit
  | none =>
    refine serve_post stable_running.toUndisturbed (fun _ h => h) (fun {t raw rest} _ ht => ?_) hs
    cases h : pollAnswer ((pollPrim t).returns raw) ((t.withInputs rest).record (pollPrim t) ((pollPrim t).returns raw)) with
    | again u =>
      obtain ⟨⟨mid, n, rfl⟩, -⟩ := pollAnswer_again h
      exact ⟨rfl, ht⟩
    | leave r =>
      obtain ⟨k, -, rfl⟩ := pollAnswer_leave h
      exact ht

/-! ## The later steps of each unit -/

theorem late_append {a b : List MicroStep} (ha : ∀ m ∈ a, Late m) (hb : ∀ m ∈ b, Late m) : ∀ m ∈ a ++ b, Late m :=
  List.forall_mem_append.mpr ⟨ha, hb⟩

theorem late_single {m : MicroStep} (h : Late m) : ∀ m' ∈ [m], Late m' := List.forall_mem_singleton.mpr h

theorem late_measureT : ∀ m ∈ measureT, Late m := by
  simp only [measureT, List.forall_mem_cons]
  exact ⟨late_twAccess, late_perform, late_twAccess, late_act, fun _ h => nomatch h⟩

theorem late_readCoefficients : ∀ m ∈ (List.range 11).map readCoefficient, Late m := by
  intro m hm
  obtain ⟨n, -, rfl⟩ := List.mem_map.mp hm
  exact late_twAccess

theorem busy_decodeFrame (t : State) : (decodeFrame t).seq.busy = t.seq.busy := by
  rw [decodeFrame_eq]

theorem late_swRead : ∀ m ∈ swRead, Late m := by
  have hbit : ∀ m ∈ (List.range Config.swBits).flatMap sampleBit, Late m := by
    intro m hm
    obtain ⟨n, -, hm⟩ := List.mem_flatMap.mp hm
    have hone : ∀ m ∈ sampleBit n, Late m := by
      simp only [sampleBit, List.forall_mem_cons]
      exact ⟨late_waitWhile _ _, late_perform, late_ask fun _ _ ht => ht, late_waitWhile _ _, fun _ h => nomatch h⟩
    exact hone m hm
  have hanswered : ∀ m ∈ swAnswered, Late m := by
    refine late_append (late_append ?_ hbit) (late_single (late_act busy_decodeFrame))
    simp only [List.forall_mem_cons]
    exact ⟨late_waitWhile _ _, late_waitWhile _ _, late_act, fun _ h => nomatch h⟩
  refine late_append ?_ hanswered
  simp only [List.forall_mem_cons]
  refine ⟨late_perform, late_perform, late_perform, late_perform, late_ask fun a t ht => ?_, fun _ h => nomatch h⟩
  split <;> exact ht

theorem late_displayBody (i : Instr) (c : DspConfig) : ∀ m ∈ displayBody i c, Late m := fun m hm =>
  late_of_takes (takes_displayBody ofRegisters_true lateCause_of_atReset (fun t k _ => lateCause_busError t k)
    (fun _ h => h) (fun t _ => lateCause_done t) (fun _ _ => lateCause_done _) i c m hm)

theorem late_standbyStep : Late standbyStep :=
  late_of_takes (takes_spiStep ofRegisters_true lateCause_of_atReset fun _ h => h)

theorem late_rfInit (c : RfConfig) : ∀ m ∈ rfInitSteps c, Late m := by
  rw [rfInitSteps_standby]
  refine late_append (fun m hm => late_of_takes (takes_initBeforeStandby ofRegisters_true lateCause_of_atReset
    (fun _ h => h) (fun _ _ h => h) c m hm)) ?_
  simp only [List.forall_mem_cons]
  exact ⟨late_standbyStep, late_perform, late_finish, fun _ h => nomatch h⟩

theorem late_rfSend (payload : List Byte) :
    ∀ m ∈ packetSteps payload ++ waitTxDone :: (afterTxDone ++ afterTxTimeout), Late m := by
  have hbyte {byte : State → Byte} : Late (spiStep byte id) :=
    late_of_takes (takes_byte ofRegisters_true lateCause_of_atReset)
  have htimeout : Late (guardStep fun _ => some (.timeout 0xC0)) := fun t _ => lateCause_timeout t 0xC0
  refine late_append (fun m hm => late_of_takes (takes_packetSteps ofRegisters_true lateCause_of_atReset
    (fun _ _ _ h => h) payload m hm)) (List.forall_mem_cons.mpr ⟨late_waitTxDone, ?_⟩)
  rw [afterPoll_eq]
  simp only [rfWrite, List.cons_append, List.nil_append, List.forall_mem_cons]
  exact ⟨hbyte, hbyte, hbyte, late_standbyStep, late_finish, hbyte, late_standbyStep, htimeout, fun _ h => nomatch h⟩

/-! ## The checks -/

/-- The checks of an operation, in order; those of `DSP.SHOWNUM` after it has written its text. -/
def checksOf : Instr → List (State → Option Cause)
  | .ptInit => [fun s => arg0Above s.operands 0x7F]
  | .swReadT | .swReadH => [fun s => arg0Above s.operands 255]
  | .ptReadT | .ptReadP => [fun s => if s.pt.init then none else some (.notInitialized 1)]
  | .dspInit => [fun s => displayOperands s.operands]
  | .dspClear => [fun s => if s.dsp.init then none else some (.notInitialized 3)]
  | .dspShowStr => [fun s => if s.dsp.init then none else some (.notInitialized 3), State.textFits, State.textGlyphs]
  | .dspShowNum => [State.textFits, State.textGlyphs]
  | .rfSend => [fun s => sendOperands s.operands, fun s => if s.rf.init then none else some (.notInitialized 4)]
  | .swSetCal | .rfInit | .rfOnRecv => []

/-- A program is its checks and its later steps, but for `DSP.SHOWNUM`. -/
theorem programOf_checks {i : Instr} (hi : i ≠ .dspShowNum) (s : State) :
    ∃ later, programOf i s = (checksOf i).map guardStep ++ later ∧ ∀ m ∈ later, Late m := by
  cases i with
  | dspShowNum => exact absurd rfl hi
  | ptInit => exact ⟨_, rfl, late_append (List.forall_mem_cons.mpr ⟨late_act, late_readCoefficients⟩) (late_single late_finish)⟩
  | ptReadT => exact ⟨_, rfl, late_append late_measureT (late_single late_finish)⟩
  | ptReadP =>
    refine ⟨_, rfl, late_append late_measureT ?_⟩
    simp only [List.forall_mem_cons]
    exact ⟨late_twAccess, late_perform, late_twAccess, late_finish, fun _ h => nomatch h⟩
  | swReadT | swReadH => exact ⟨_, rfl, late_append late_swRead (late_single late_finish)⟩
  | swSetCal => exact ⟨_, rfl, late_single late_finish⟩
  | dspInit =>
    refine ⟨act setGeometry :: displayBody .dspInit s.cfg.dsp, ?_,
      List.forall_mem_cons.mpr ⟨late_act, late_displayBody .dspInit s.cfg.dsp⟩⟩
    simp [programOf, dspInitSteps, displayBody, checksOf]
  | dspClear => exact ⟨_, rfl, late_displayBody .dspClear s.cfg.dsp⟩
  | dspShowStr => exact ⟨_, rfl, List.forall_mem_cons.mpr ⟨late_act, late_displayBody .dspShowStr s.cfg.dsp⟩⟩
  | rfInit => exact ⟨_, rfl, late_rfInit s.cfg.rf⟩
  | rfSend => exact ⟨_, rfSendSteps_eq s.text, late_rfSend s.text⟩
  | rfOnRecv => exact ⟨_, rfl, late_single late_finish⟩

/-- Checks take no input: one of them raises, or they leave the state at a later step. -/
theorem runSteps_checks (checks : List (State → Option Cause)) (later : List MicroStep) {s : State}
    (hquiet : quiet s.env.inputs = true) :
    (∃ c, runSteps (checks.map guardStep ++ later) 0 s = .ended (s.raise c)) ∨
      ∃ n, runSteps (checks.map guardStep ++ later) 0 s = runSteps later 0 { s with seq := { s.seq with phase := n } } := by
  induction checks generalizing s with
  | nil => exact .inr ⟨s.seq.phase, rfl⟩
  | cons g checks ih =>
    cases hg : g s with
    | some c => exact .inl ⟨c, runSteps_ended hquiet (guardStep_some hg)⟩
    | none =>
      have hgo : runSteps ((g :: checks).map guardStep ++ later) 0 s =
          runSteps (checks.map guardStep ++ later) 0 s.nextPhase := runSteps_go hquiet (guardStep_none hg)
      rw [hgo]
      exact ih (s := s.nextPhase) hquiet

/-- A run of later steps does not end with one of the three causes. -/
theorem runSteps_late {later : List MicroStep} (h : ∀ m ∈ later, Late m) {s : State} (hbusy : s.seq.busy = true)
    (hidle : (runSteps later 0 s).state.idle) : LateCause (runSteps later 0 s).state := by
  have hpost := runSteps_post stable_running (fun m hm t ht => h m hm t ht) 0 (s := s) ⟨hbusy, trivial⟩
  cases hr : runSteps later 0 s with
  | go k t => exact lateCause_done t
  | ended t => rw [hr] at hpost; exact hpost
  | wait t =>
    rw [hr] at hpost hidle
    exact absurd (hidle.symm.trans hpost.1) Bool.false_ne_true

/-- Checks and later steps: an end with one of the three causes is that of a check. -/
theorem runSteps_checks_raise {checks : List (State → Option Cause)} {later : List MicroStep}
    (hlater : ∀ m ∈ later, Late m) {s : State} (hquiet : quiet s.env.inputs = true) (hbusy : s.seq.busy = true)
    (hidle : (runSteps (checks.map guardStep ++ later) 0 s).state.idle)
    (hearly : ¬ LateCause (runSteps (checks.map guardStep ++ later) 0 s).state) :
    ∃ c, (runSteps (checks.map guardStep ++ later) 0 s).state = s.raise c := by
  rcases runSteps_checks checks later hquiet with ⟨c, hc⟩ | ⟨n, hn⟩
  · exact ⟨c, by rw [hc]; rfl⟩
  · rw [hn] at hidle hearly
    exact absurd (runSteps_late hlater (s := { s with seq := { s.seq with phase := n } }) hbusy hidle) hearly

/-- Settles O40: the three causes are those of checks, which change nothing. -/
theorem earlyCauses : Obligations.EarlyCauses := by
  intro i s t hidle hquiet h htidle hcode
  rw [exec_eq_runOf, runOf_of_idle hidle, Host.Outcome.next.injEq] at h
  subst h
  have hearly : ¬ LateCause (runSteps (programOf i (s.start (opcodeOf i))) 0 (s.start (opcodeOf i))).state :=
    not_not.mpr hcode
  by_cases hi : i = .dspShowNum
  · subst hi
    cases hinit : s.dsp.init with
    | false =>
      have hraise : runSteps dspShowNumSteps 0 (s.start 0x33) = .ended ((s.start 0x33).raise (.notInitialized 3)) :=
        runSteps_ended hquiet (needsInit_unset hinit)
      have hstate : (runSteps (programOf .dspShowNum (s.start (opcodeOf .dspShowNum))) 0
          (s.start (opcodeOf .dspShowNum))).state = _ := congrArg Stepped.state hraise
      rw [hstate]
      exact ⟨.notInitialized 3, rfl, fun h => absurd rfl h⟩
    | true =>
      have hgo : runSteps dspShowNumSteps 0 (s.start 0x33) = runSteps ((checksOf .dspShowNum).map guardStep ++
          act drawText :: displayBody .dspShowNum s.cfg.dsp) 0 (formatNumber (s.start 0x33).nextPhase).nextPhase := by
        have hguard : needsInit (fun s => s.dsp.init) 3 (s.start 0x33) = .go 0 (s.start 0x33) := needsInit_set hinit
        exact (runSteps_go (s := s.start 0x33) hquiet hguard).trans (runSteps_go (s := (s.start 0x33).nextPhase) hquiet (act_go _ _))
      have hlater := List.forall_mem_cons.mpr ⟨late_act (f := drawText), late_displayBody .dspShowNum s.cfg.dsp⟩
      have hsteps : runSteps (programOf .dspShowNum (s.start (opcodeOf .dspShowNum))) 0
          (s.start (opcodeOf .dspShowNum)) = _ := hgo
      rw [hsteps] at htidle hearly ⊢
      obtain ⟨c, hc⟩ := runSteps_checks_raise hlater (by exact hquiet) rfl htidle hearly
      rw [hc]
      exact ⟨c, rfl, fun h => absurd rfl h⟩
  · obtain ⟨later, hprogram, hlater⟩ := programOf_checks hi (s.start (opcodeOf i))
    rw [hprogram] at htidle hearly ⊢
    obtain ⟨c, hc⟩ := runSteps_checks_raise hlater (s := s.start (opcodeOf i)) hquiet rfl htidle hearly
    rw [hc]
    exact ⟨c, rfl, fun _ => ⟨rfl, rfl⟩⟩

end Sys2Proof.Machine
end

section
/-! PROOFS. An operation with and without the receive events among its inputs (20_memory.md R81; 60_exceptions.md R300):
the two runs go on side by side, in states that differ in the pending bit, in what host reads of it, and in those inputs. -/

namespace Sys2Proof.Machine

/-! ## Outside actions seen with another pending bit -/

section
variable (s : State) (b : Bool) (reads : List HostReadResult) (l : List Input)

theorem hostWriteBusy_view (i : HostIndex) (v : Word) :
    ∃ b', (s.view b reads l).hostWriteBusy i v = (s.hostWriteBusy i v).view b' reads l := by
  unfold State.hostWriteBusy
  by_cases hstatus : i = statusIndex
  · rw [if_pos hstatus, if_pos hstatus]
    split
    · exact ⟨false, rfl⟩
    · exact ⟨b, rfl⟩
  · rw [if_neg hstatus, if_neg hstatus]
    split <;> exact ⟨b, rfl⟩

theorem hostWriteIdle_view (i : HostIndex) (v : Word) :
    ∃ b', (s.view b reads l).hostWriteIdle i v = (s.hostWriteIdle i v).view b' reads l := by
  unfold State.hostWriteIdle
  dsimp only
  split
  · exact ⟨b, rfl⟩
  · generalize i.toNat = n
    split
    · exact ⟨b && !v.getLsbD 6, rfl⟩
    all_goals exact ⟨b, rfl⟩

theorem hostWrite_view (i : HostIndex) (v : Word) :
    ∃ b', (s.view b reads l).hostWrite i v = (s.hostWrite i v).view b' reads l := by
  unfold State.hostWrite
  rw [State.view_busy]
  split
  · exact hostWriteBusy_view s b reads l i v
  · exact hostWriteIdle_view s b reads l i v

theorem rxEvent_view : ∃ b', (s.view b reads l).rxEvent = s.rxEvent.view b' reads l := by
  unfold State.rxEvent
  have hrxie : (s.view b reads l).rf.rxie = s.rf.rxie := rfl
  rw [hrxie]
  split
  · exact ⟨true, rfl⟩
  · exact ⟨b, rfl⟩

theorem hostRead_view (i : HostIndex) :
    ∃ reads', (s.view b reads l).hostRead i = (s.hostRead i).view b reads' l := by
  unfold State.hostRead
  rw [State.view_busy]
  split <;> exact ⟨_, rfl⟩

theorem resetBy_view (e : External) : (s.view b reads l).resetBy e = s.resetBy e := by cases e <;> rfl

/-- An outside action does the same, but for the pending bit and what is read. -/
theorem external_view (e : External) :
    ∃ b' reads', (s.view b reads l).external e = (s.external e).view b' reads' l := by
  cases e with
  | hostRead i => exact ⟨b, hostRead_view s b reads l i⟩
  | hostWrite i v =>
    obtain ⟨b', h⟩ := hostWrite_view s b reads l i v
    exact ⟨b', reads, h⟩
  | rxEvent n =>
    obtain ⟨b', h⟩ := rxEvent_view s b reads l
    exact ⟨b', reads, h⟩
  | hostWriteRx i v n =>
    obtain ⟨b', h⟩ := hostWrite_view s b reads l i v
    obtain ⟨b'', h'⟩ := rxEvent_view (s.hostWrite i v) b' reads l
    exact ⟨b'', reads, (congrArg State.rxEvent h).trans h'⟩
  | rst asserted =>
    unfold State.external
    dsimp only
    rw [resetBy_view]
    split
    · exact ⟨false, reads, rfl⟩
    · exact ⟨b, reads, rfl⟩

/-- A receive event changes the pending bit only. -/
theorem rxEvent_hidden : s.rxEvent.view b reads l = s.view b reads l := by
  unfold State.rxEvent
  split <;> rfl

end

/-! ## Side by side -/

/-- `s'` is `s` without the receive events to come, with some pending bit and record of reads. -/
def Beside (s s' : State) : Prop :=
  onlyRxEarly s.env.inputs = true ∧ ∃ b reads, s' = s.view b reads (withoutRxEvents s.env.inputs)

/-- The same has come of both. -/
inductive Mirrors : Stepped → Stepped → Prop
  | go {s s' : State} (k : Nat) (h : Beside s s') : Mirrors (.go k s) (.go k s')
  | ended {s s' : State} (h : Beside s s') : Mirrors (.ended s) (.ended s')
  | wait {s s' : State} (h : Beside s s') : Mirrors (.wait s) (.wait s')

theorem Mirrors.andThen {r r' : Stepped} {f g : Nat → State → Stepped} (h : Mirrors r r')
    (hfg : ∀ k s s', Beside s s' → Mirrors (f k s) (g k s')) : Mirrors (r.andThen f) (r'.andThen g) := by
  cases h with
  | go k h => exact hfg k _ _ h
  | ended h => exact .ended h
  | wait h => exact .wait h

theorem mirrors_view {r : Stepped} {l : List Input} (hr : r.current.env.inputs = l) (hl : onlyRxEarly l = true)
    (b : Bool) (reads : List HostReadResult) : Mirrors r (r.view b reads (withoutRxEvents l)) := by
  subst hr
  cases r with
  | go k s => exact .go k ⟨hl, b, reads, rfl⟩
  | ended s => exact .ended ⟨hl, b, reads, rfl⟩
  | wait s => exact .wait ⟨hl, b, reads, rfl⟩

theorem onlyRxEarly_cons {x : Input} {rest : List Input} (h : onlyRxEarly (x :: rest) = true) :
    onlyRxEarly rest = true := by
  rw [onlyRxEarly, List.all_cons, Bool.and_eq_true] at h
  exact h.2

/-- An input that jumps in is a receive event. -/
theorem rxEvent_of_early {e : External} {rest : List Input} (h : onlyRxEarly (.early e :: rest) = true) :
    ∃ n, e = .rxEvent n := by
  cases e with
  | rxEvent n => exact ⟨n, rfl⟩
  | _ => cases h

theorem quiet_withoutRxEvents {l : List Input} (h : onlyRxEarly l = true) : quiet (withoutRxEvents l) = true := by
  induction l with
  | nil => rfl
  | cons x rest ih =>
    have hrest := ih (onlyRxEarly_cons h)
    cases x with
    | answer a => rfl
    | pass => exact hrest
    | early e =>
      obtain ⟨n, rfl⟩ := rxEvent_of_early h
      exact hrest
    | ext e =>
      cases e with
      | rxEvent n => exact hrest
      | _ => rfl

/-- A receive event, or a pass, leaves the two side by side. -/
theorem Beside.take {s s' : State} {x : Input} {rest : List Input} (h : Beside s s') (hin : s.env.inputs = x :: rest)
    (hx : withoutRxEvents (x :: rest) = withoutRxEvents rest) : Beside (s.withInputs rest) s' := by
  obtain ⟨hl, b, reads, rfl⟩ := h
  rw [hin] at hl
  exact ⟨onlyRxEarly_cons hl, b, reads, by rw [hin, hx]; rfl⟩

theorem Beside.receive {s s' : State} {x : Input} {rest : List Input} (n : Word) (h : Beside s s')
    (hin : s.env.inputs = x :: rest) (hx : withoutRxEvents (x :: rest) = withoutRxEvents rest) :
    Beside ((s.withInputs rest).external (.rxEvent n)) s' := by
  obtain ⟨hl, b, reads, rfl⟩ := h.take hin hx
  refine ⟨by rwa [external_inputs], b, reads, ?_⟩
  rw [external_inputs, external_rxEvent, rxEvent_hidden]

/-- Before a step only receive events come. -/
theorem absorb_beside {s s' : State} (h : Beside s s') : Mirrors (absorb s.env.inputs s) (.go 0 s') := by
  generalize hl : s.env.inputs = l
  induction l generalizing s with
  | nil => exact .go 0 h
  | cons x rest ih =>
    cases x with
    | answer a => exact .go 0 h
    | ext e => exact .go 0 h
    | pass => exact .go 0 (h.take hl rfl)
    | early e =>
      have honly := h.1
      rw [hl] at honly
      obtain ⟨n, rfl⟩ := rxEvent_of_early honly
      exact ih (h.receive n hl rfl) (external_inputs _ _)

theorem Served.inputs_of_leave_of_blind {f : State → Served}
    (hf : ∀ s b reads l, f (s.view b reads l) = (f s).view b reads l) (s : State) {r : Stepped} (h : f s = .leave r) :
    r.current.env.inputs = s.env.inputs := by
  have hself : f s = (f s).view s.rf.rxpend s.env.hostReads s.env.inputs := hf s s.rf.rxpend s.env.hostReads s.env.inputs
  rw [h] at hself
  rw [Served.leave.inj hself]
  cases r <;> rfl

theorem serve_beside {prim : State → Prim} {reply : Answer → State → Served} (hprim : BlindValue prim)
    (hreply : ∀ a s b reads l, reply a (s.view b reads l) = (reply a s).view b reads l) {s s' : State}
    (h : Beside s s') : Mirrors (serve prim reply s.env.inputs s) (serve prim reply s'.env.inputs s') := by
  generalize hl : s.env.inputs = l
  have hinputs : s'.env.inputs = withoutRxEvents l := by
    obtain ⟨-, b, reads, rfl⟩ := h
    rw [State.view_inputs, hl]
  rw [hinputs]
  induction l generalizing s s' with
  | nil =>
    obtain ⟨-, b, reads, rfl⟩ := h
    exact .wait ⟨rfl, b, reads, rfl⟩
  | cons x rest ih =>
    have honly := h.1
    rw [hl] at honly
    have hevent {n : Word} (hx : withoutRxEvents (x :: rest) = withoutRxEvents rest) :
        Mirrors (serve prim reply rest ((s.withInputs rest).external (.rxEvent n)))
          (serve prim reply (withoutRxEvents (x :: rest)) s') := by
      rw [hx]
      exact ih (h.receive n hl hx) (external_inputs _ _) (hinputs.trans hx)
    cases x with
    | pass => exact ih (h.take hl rfl) rfl hinputs
    | early e =>
      obtain ⟨n, rfl⟩ := rxEvent_of_early honly
      exact hevent rfl
    | answer raw =>
      obtain ⟨-, b, reads, rfl⟩ := h
      have hrest := onlyRxEarly_cons honly
      have hview : ((s.view b reads (withoutRxEvents s.env.inputs)).withInputs (withoutRxEvents rest)).record (prim s)
          ((prim s).returns raw) = ((s.withInputs rest).record (prim s) ((prim s).returns raw)).view b reads
            (withoutRxEvents rest) := rfl
      have hsame : withoutRxEvents (.answer raw :: rest) = .answer raw :: withoutRxEvents rest := rfl
      rw [hsame, serve_answer, serve_answer, hprim, hview, hreply]
      cases hr : reply ((prim s).returns raw) ((s.withInputs rest).record (prim s) ((prim s).returns raw)) with
      | again t =>
        have ht : t.env.inputs = rest := Served.inputs_of_blind (hreply _) hr
        exact ih (s := t) ⟨ht ▸ hrest, b, reads, by rw [ht]⟩ ht rfl
      | leave r => exact mirrors_view (Served.inputs_of_leave_of_blind (hreply _) _ hr) hrest b reads
    | ext e =>
      by_cases hrx : ∃ n, e = .rxEvent n
      · obtain ⟨n, rfl⟩ := hrx
        exact hevent rfl
      · obtain ⟨-, b, reads, rfl⟩ := h
        have hrest := onlyRxEarly_cons honly
        have hsame : withoutRxEvents (.ext e :: rest) = .ext e :: withoutRxEvents rest := by
          cases e with
          | rxEvent n => exact absurd ⟨n, rfl⟩ hrx
          | _ => rfl
        obtain ⟨b', reads', hview⟩ := external_view (s.withInputs rest) b reads (withoutRxEvents rest) e
        have hview' : ((s.view b reads (withoutRxEvents s.env.inputs)).withInputs (withoutRxEvents rest)).external e =
            ((s.withInputs rest).external e).view b' reads' (withoutRxEvents rest) := hview
        have hafter : ((s.withInputs rest).external e).env.inputs = rest := external_inputs _ _
        have hbeside : Beside ((s.withInputs rest).external e)
            (((s.withInputs rest).external e).view b' reads' (withoutRxEvents rest)) :=
          ⟨by rw [hafter]; exact hrest, b', reads', by rw [hafter]⟩
        rw [hsame, serve_external (.inl rfl), serve_external (.inl rfl), resetBy_view, hview']
        split
        · exact .ended hbeside
        · exact ih hbeside hafter rfl

/-! ## Steps and lists of steps -/

section
variable {i : Instr}

theorem Fits.mirrors {m : MicroStep} {f : Bool} (hm : Fits i m f) {s s' : State} (h : Beside s s') :
    Mirrors (m s) (m s') := by
  cases hm with
  | silent hm =>
    obtain ⟨hl, b, reads, rfl⟩ := h
    rw [hm.blind]
    exact mirrors_view (Stepped.inputs_of_blind hm.blind s) hl b reads
  | @asking exit prim reply hm hasks =>
    subst hm
    have hserve := serve_beside hasks.prim_blind hasks.reply_blind h
    obtain ⟨hl, b, reads, rfl⟩ := h
    unfold decideOrAsk
    rw [hasks.exit_blind]
    cases hexit : exit s with
    | some r =>
      have hself := hasks.exit_blind s s.rf.rxpend s.env.hostReads s.env.inputs
      have hs : s.view s.rf.rxpend s.env.hostReads s.env.inputs = s := rfl
      rw [hs, hexit, Option.map_some, Option.some_inj] at hself
      exact mirrors_view (by rw [hself]; cases r <;> rfl) hl b reads
    | none => exact hserve

theorem Beside.nextPhase {s s' : State} (h : Beside s s') : Beside s.nextPhase s'.nextPhase := by
  obtain ⟨hl, b, reads, rfl⟩ := h
  exact ⟨hl, b, reads, rfl⟩

theorem runSteps_mirrors {ms : List MicroStep} {bs : List Bool} (hms : List.Forall₂ (Fits i) ms bs) (k : Nat)
    {s s' : State} (h : Beside s s') : Mirrors (runSteps ms k s) (runSteps ms k s') := by
  induction hms generalizing k s s' with
  | nil => exact .go k h
  | cons hm _ ih =>
    cases k with
    | succ k => exact ih k h.nextPhase
    | zero =>
      have hquiet : quiet s'.env.inputs = true := by
        obtain ⟨hl, b, reads, rfl⟩ := h
        exact quiet_withoutRxEvents hl
      rw [runSteps_cons_eq, runSteps_cons_eq, absorb_quiet _ s' hquiet]
      exact (absorb_beside h).andThen fun _ u u' hu => (hm.mirrors hu).andThen fun k _ _ hv => ih k hv.nextPhase

end

/-! ## The statement -/

theorem programOf_view (i : Instr) (s : State) (b : Bool) (reads : List HostReadResult) (l : List Input) :
    programOf i (s.view b reads l) = programOf i s := by
  cases i <;> rfl

theorem underway_view (s : State) (opc : Byte) (b : Bool) (reads : List HostReadResult) (l : List Input) :
    (s.view b reads l).underway opc = (s.underway opc).view b reads l := by
  unfold State.underway
  rw [State.view_busy]
  split <;> rfl

/-- An operation side by side. -/
theorem runOf_mirrors (i : Instr) {s s' : State} (h : Beside s s') : Mirrors (s.runOf i) (s'.runOf i) := by
  have hunderway : Beside (s.underway (opcodeOf i)) (s'.underway (opcodeOf i)) := by
    obtain ⟨hl, b, reads, rfl⟩ := h
    have hinputs : (s.underway (opcodeOf i)).env.inputs = s.env.inputs := by
      obtain ⟨q, hq, -⟩ := underway_eq s (opcodeOf i)
      rw [hq]
    exact ⟨hinputs ▸ hl, b, reads, by rw [underway_view, hinputs]⟩
  have hrun := runSteps_mirrors (remaining_fits i (s.underway (opcodeOf i)) ((s.underway (opcodeOf i)).seq.phase - 1)) 0
    hunderway
  obtain ⟨-, b, reads, hview⟩ := hunderway
  have hprogram : programOf i (s'.underway (opcodeOf i)) = programOf i (s.underway (opcodeOf i)) := by
    rw [hview, programOf_view]
  have hphase : (s'.underway (opcodeOf i)).seq.phase = (s.underway (opcodeOf i)).seq.phase := by
    rw [hview]
    rfl
  unfold State.runOf
  rwa [hprogram, hphase]

theorem Mirrors.state {r r' : Stepped} (h : Mirrors r r') : Beside r.state r'.state := by
  cases h with
  | go k h =>
    obtain ⟨hl, b, reads, rfl⟩ := h
    exact ⟨hl, b, reads, rfl⟩
  | ended h => exact h
  | wait h => exact h

/-- Settles O49: the run without the receive events stays beside the run with them. -/
theorem rxEventsDoNotDisturb : Obligations.RxEventsDoNotDisturb := by
  intro i s t t' honly h h'
  have hbeside : Beside s (s.withInputs (withoutRxEvents s.env.inputs)) :=
    ⟨honly, s.rf.rxpend, s.env.hostReads, rfl⟩
  have hstate := (runOf_mirrors i hbeside).state
  rw [exec_eq_runOf, Host.Outcome.next.injEq] at h h'
  rw [h, h'] at hstate
  obtain ⟨-, b, reads, rfl⟩ := hstate
  exact ⟨⟨rfl, rfl, rfl, rfl, rfl, rfl, rfl, rfl, rfl, rfl, rfl⟩, rfl⟩

end Sys2Proof.Machine
end

section
/-! PROOFS. Bounded waits (60_exceptions.md R310): with finite poll bounds every step takes at most a known number of
answers, and waits only if fewer are left. -/

namespace Sys2Proof.Machine

/-! ## Answers left -/

/-- How many answers are among the inputs still to come. -/
def State.left (s : State) : Nat := (answersIn s.env.inputs).length

theorem left_of_inputs {s t : State} (h : t.env.inputs = s.env.inputs) : t.left = s.left := by
  rw [State.left, h, State.left]

theorem left_answer {s : State} {raw : Answer} {rest : List Input} (h : s.env.inputs = .answer raw :: rest) :
    s.left = (s.withInputs rest).left + 1 := by
  rw [State.left, h]
  rfl

theorem left_other {s : State} {x : Input} {rest : List Input} (h : s.env.inputs = x :: rest)
    (hx : x.isAnswer = false) : (s.withInputs rest).left = s.left := by
  rw [State.left, State.left, h, answersIn, answersIn, List.filter_cons_of_neg (by rw [hx]; exact Bool.false_ne_true)]
  rfl

/-! ## The counters -/

/-- In flight between two steps, with finite bounds `a` and `b`. -/
structure Counting (a b : Nat) (s : State) : Prop where
  busy : s.seq.busy = true
  pins : s.cfg.swPollMax = some a
  flags : s.cfg.rf.pollMax = some b
  polls : s.seq.polls = 0
  mid : s.seq.midRead = false

/-- `t` differs from `s` in neither the counters nor the bounds. -/
structure SameCounters (s t : State) : Prop where
  cfg : t.cfg = s.cfg
  busy : t.seq.busy = s.seq.busy
  polls : t.seq.polls = s.seq.polls
  mid : t.seq.midRead = s.seq.midRead

section
variable {a b : Nat} {s t : State}

theorem Counting.of_same (h : Counting a b s) (hsame : SameCounters s t) : Counting a b t :=
  ⟨hsame.busy.trans h.busy, hsame.cfg ▸ h.pins, hsame.cfg ▸ h.flags, hsame.polls.trans h.polls, hsame.mid.trans h.mid⟩

/-- Nothing from outside but a reset moves the counters or takes an answer. -/
theorem external_counters {e : External} {rest : List Input}
    (hin : s.env.inputs = .ext e :: rest ∨ s.env.inputs = .early e :: rest) (hr : s.resetBy e = false) :
    SameCounters s ((s.withInputs rest).external e) ∧ ((s.withInputs rest).external e).left = s.left := by
  obtain ⟨hcfg, -, -, -, -, hseq, -, hinputs, -⟩ := external_frame (s.withInputs rest) e (by rw [resetBy_withInputs, hr])
  refine ⟨⟨hcfg, by rw [hseq]; rfl, by rw [hseq]; rfl, by rw [hseq]; rfl⟩, (left_of_inputs hinputs).trans ?_⟩
  rcases hin with hin | hin <;> exact left_other hin rfl

/-- A property of the counters and of the number of answers left. -/
theorem undisturbed_counters {Q : State → Nat → Prop} (hQ : ∀ s t n, SameCounters s t → Q s n → Q t n) :
    Undisturbed (fun s => Q s s.left) fun _ => True where
  pass {s rest} hin h := by
    have hleft : (s.withInputs rest).left = s.left := left_other hin rfl
    rw [hleft]
    exact hQ s _ _ ⟨rfl, rfl, rfl, rfl⟩ h
  ext {s e rest} hin hr h := by
    obtain ⟨hsame, hleft⟩ := external_counters hin hr
    rw [hleft]
    exact hQ s _ _ hsame h
  reset _ _ _ := trivial

end

/-! ## What a step costs -/

/-- How many steps may be passed over: none, or any number. -/
structure Passing (K : Nat → Prop) : Prop where
  zero : K 0
  pred : ∀ k, K (k + 1) → K k

theorem passing_none : Passing (· = 0) := ⟨rfl, fun _ h => nomatch h⟩

theorem passing_any : Passing fun _ => True := ⟨trivial, fun _ _ => trivial⟩

/-- Step `m` takes at most `n` answers, and waits only if fewer are left; it passes over `K` steps. -/
def Costs (K : Nat → Prop) (a b n : Nat) (m : MicroStep) : Prop := ∀ s, Counting a b s →
  (m s).Post (fun k t => K k ∧ Counting a b t ∧ s.left ≤ t.left + n) (fun _ => True) (fun _ => s.left < n)

/-- A register change that leaves the counters, the bounds and the inputs. -/
def KeepsCounters (f : State → State) : Prop := ∀ s, SameCounters s (f s) ∧ (f s).env.inputs = s.env.inputs

section
variable {K : Nat → Prop} {a b : Nat} (hK : Passing K)
include hK

theorem costs_act {f : State → State} (hf : KeepsCounters f := by intro s; exact ⟨⟨rfl, rfl, rfl, rfl⟩, rfl⟩) :
    Costs K a b 0 (act f) := by
  intro s hs
  obtain ⟨hsame, hinputs⟩ := hf s
  exact ⟨hK.zero, hs.of_same hsame, (left_of_inputs hinputs).ge⟩

theorem costs_perform {prim : State → Prim} {f : State → State}
    (hf : KeepsCounters f := by intro s; exact ⟨⟨rfl, rfl, rfl, rfl⟩, rfl⟩) : Costs K a b 0 (perform prim f) := by
  intro s hs
  obtain ⟨hsame, hinputs⟩ := hf (s.record (prim s) Answer.nothing)
  exact ⟨hK.zero, (hs.of_same (t := s.record (prim s) Answer.nothing) ⟨rfl, rfl, rfl, rfl⟩).of_same hsame,
    (left_of_inputs hinputs).ge⟩

theorem costs_guardStep {g : State → Option Cause} : Costs K a b 0 (guardStep g) := by
  intro s hs
  unfold guardStep
  cases g s with
  | none => exact ⟨hK.zero, hs, le_rfl⟩
  | some c => trivial

omit hK in
theorem costs_finish {f : State → State} : Costs K a b 0 (finish f) := fun _ _ => trivial

omit hK in
/-- A step that asks: `R s p` says that it is in its loop and takes at most `p` more answers; `K` is what it may pass
over. -/
theorem serve_costs {R : State → Nat → Prop} (hsame : ∀ s t p, SameCounters s t → R s p → R t p)
    (hpos : ∀ s p, R s p → 1 ≤ p) {prim : State → Prim} {reply : Answer → State → Served}
    (hreply : ∀ x s p, R s p → (reply x s).Post (fun t => t.env.inputs = s.env.inputs ∧ ∃ p', p' + 1 ≤ p ∧ R t p')
      (fun k t => K k ∧ t.env.inputs = s.env.inputs ∧ Counting a b t) (fun _ => True) (fun _ => False))
    {s : State} {p : Nat} (hs : R s p) : (serve prim reply s.env.inputs s).Post
      (fun k t => K k ∧ Counting a b t ∧ s.left ≤ t.left + p) (fun _ => True) (fun _ => s.left < p) := by
  have hundisturbed : Undisturbed (fun t => ∃ p', R t p' ∧ s.left + p' ≤ t.left + p) fun _ => True :=
    undisturbed_counters (Q := fun t n => ∃ p', R t p' ∧ s.left + p' ≤ n + p)
      fun t u n htu ⟨p', hR, hn⟩ => ⟨p', hsame t u p' htu hR, hn⟩
  have hwait {t : State} (hin : t.env.inputs = []) (ht : ∃ p', R t p' ∧ s.left + p' ≤ t.left + p) : s.left < p := by
    obtain ⟨p', hR, hn⟩ := ht
    have hnone : t.left = 0 := by rw [State.left, hin]; rfl
    have := hpos t p' hR
    omega
  refine serve_post (W := fun _ => s.left < p) hundisturbed hwait (fun {t raw rest} hin ht => ?_) ⟨p, hs, le_rfl⟩
  obtain ⟨p', hR, hn⟩ := ht
  have hleft := left_answer hin
  have hafter := hreply ((prim t).returns raw) ((t.withInputs rest).record (prim t) ((prim t).returns raw)) p'
    (hsame t _ p' ⟨rfl, rfl, rfl, rfl⟩ hR)
  have hpos' := hpos t p' hR
  cases hr : reply ((prim t).returns raw) ((t.withInputs rest).record (prim t) ((prim t).returns raw)) with
  | again u =>
    rw [hr] at hafter
    obtain ⟨hinputs, p'', hp, hRu⟩ := hafter
    have hu : u.left = (t.withInputs rest).left := left_of_inputs hinputs
    exact ⟨hinputs, p'', hRu, by omega⟩
  | leave r =>
    rw [hr] at hafter
    refine Stepped.Post.imp hafter (fun k u hu => ?_) (fun _ _ => trivial) fun _ hu => hu.elim
    obtain ⟨hk, hinputs, hcounting⟩ := hu
    have hleftu : u.left = (t.withInputs rest).left := left_of_inputs hinputs
    exact ⟨hk, hcounting, by omega⟩

omit hK in
theorem costs_ask {prim : State → Prim} {k : Answer → State → Stepped}
    (hk : ∀ x s, Counting a b s → (k x s).Post (fun k t => K k ∧ t.env.inputs = s.env.inputs ∧ Counting a b t)
      (fun _ => True) fun _ => False) : Costs K a b 1 (ask prim k) := fun _ hs =>
  serve_costs (R := fun s p => Counting a b s ∧ p = 1) (reply := fun x t => .leave (k x t))
    (fun _ _ _ hsame h => ⟨h.1.of_same hsame, h.2⟩) (fun _ _ h => h.2.ge) (fun x s _ h => hk x s h.1) ⟨hs, rfl⟩

theorem costs_twAccess {prim : State → Prim} {info : Byte} {f : BitVec 24 → State → State}
    (hf : ∀ d, KeepsCounters (f d) := by intro d s; exact ⟨⟨rfl, rfl, rfl, rfl⟩, rfl⟩) :
    Costs K a b 1 (twAccess prim info f) := by
  refine costs_ask fun x s hs => ?_
  split
  · obtain ⟨hsame, hinputs⟩ := hf x.data s
    exact ⟨hK.zero, hinputs, hs.of_same hsame⟩
  · trivial

theorem costs_spiStep {byte : State → Byte} {f : State → State}
    (hf : KeepsCounters f := by intro s; exact ⟨⟨rfl, rfl, rfl, rfl⟩, rfl⟩) : Costs K a b 1 (spiStep byte f) := by
  refine costs_ask fun x s hs => ?_
  obtain ⟨hsame, hinputs⟩ := hf s
  exact ⟨hK.zero, hinputs, hs.of_same hsame⟩

/-- R181: a wait makes at most `a` reads. -/
theorem costs_waitWhile (ha : 1 ≤ a) (stay : Bool) (id : Byte) : Costs K a b a (waitWhile stay id) := by
  intro s hs
  rw [waitWhile_eq]
  refine serve_costs (R := fun t p => t.seq.busy = true ∧ t.cfg.swPollMax = some a ∧
    t.cfg.rf.pollMax = some b ∧ t.seq.midRead = false ∧ t.seq.polls < a ∧ p = a - t.seq.polls)
    (fun t u p hsame h => ?_) (fun t p h => by omega) (fun x t p h => ?_)
    ⟨hs.busy, hs.pins, hs.flags, hs.mid, by rw [hs.polls]; omega, by rw [hs.polls]; rfl⟩
  · rw [hsame.busy, hsame.cfg, hsame.mid, hsame.polls]
    exact h
  · obtain ⟨hbusy, hpins, hflags, hmid, hpolls, rfl⟩ := h
    cases hr : waitAnswer stay id x t with
    | again u =>
      obtain ⟨rfl, hbound⟩ := waitAnswer_again hr
      have hshort : t.seq.polls + 1 < a := by
        refine lt_of_le_of_ne hpolls fun hlast => hbound ?_
        rw [hpins, hlast]
      refine ⟨rfl, _, ?_, hbusy, hpins, hflags, hmid, hshort, rfl⟩
      dsimp only
      omega
    | leave r =>
      rcases waitAnswer_leave hr with rfl | rfl
      · exact ⟨hK.zero, rfl, hbusy, hpins, hflags, rfl, hmid⟩
      · trivial

omit hK in
/-- The poll goes round after the first byte of a read, and after the second short of the bound. -/
theorem pollAnswer_again_cases {x : Answer} {s t : State} (h : pollAnswer x s = .again t) :
    (s.seq.midRead = false ∧ t = { s with seq := { s.seq with midRead := true } }) ∨
      (s.seq.midRead = true ∧ s.cfg.rf.pollMax ≠ some (s.seq.polls + 1) ∧
        t = { s with seq := { s.seq with midRead := false, polls := s.seq.polls + 1 } }) := by
  unfold pollAnswer at h
  split at h
  · rename_i hmid
    exact .inl ⟨hmid, (Served.again.inj h).symm⟩
  · rename_i hmid
    split at h
    · cases h
    · split at h
      · cases h
      · rename_i hbound
        exact .inr ⟨Bool.eq_true_of_not_eq_false hmid, hbound, (Served.again.inj h).symm⟩

omit hK in
/-- R262: the poll makes at most `b` reads of two bytes, and goes on at one of two places. -/
theorem waitTxDone_costs {s : State} (hs : Counting a b s) :
    (waitTxDone s).Post (fun k t => (k = 0 ∨ k = afterTxDone.length) ∧ Counting a b t ∧ s.left ≤ t.left + 2 * b)
      (fun _ => True) (fun _ => s.left < 2 * b) := by
  rw [waitTxDone_eq_decideOrAsk, decideOrAsk]
  cases hexit : pollExit s with
  | some r =>
    unfold pollExit at hexit
    split at hexit
    · cases hexit
      exact ⟨.inr rfl, ⟨hs.busy, hs.pins, hs.flags, rfl, hs.mid⟩, Nat.le_add_right _ _⟩
    · cases hexit
  | none =>
    have hshort : 0 < b := by
      refine Nat.pos_of_ne_zero fun hzero => pollExit_eq_none_iff.mp hexit ⟨hs.mid, ?_⟩
      rw [hs.flags, hs.polls, hzero]
    refine serve_costs (R := fun t p => t.seq.busy = true ∧ t.cfg.swPollMax = some a ∧ t.cfg.rf.pollMax = some b ∧
      t.seq.polls < b ∧ p + t.seq.midRead.toNat = 2 * (b - t.seq.polls))
      (fun t u p hsame h => ?_) (fun t p h => ?_) (fun x t p h => ?_)
      ⟨hs.busy, hs.pins, hs.flags, by rw [hs.polls]; exact hshort, by rw [hs.polls, hs.mid]; rfl⟩
    · rw [hsame.busy, hsame.cfg, hsame.mid, hsame.polls]
      exact h
    · obtain ⟨-, -, -, hpolls, hp⟩ := h
      have := Bool.toNat_lt t.seq.midRead
      omega
    · obtain ⟨hbusy, hpins, hflags, hpolls, hp⟩ := h
      cases hr : pollAnswer x t with
      | again u =>
        rcases pollAnswer_again_cases hr with ⟨hmid, rfl⟩ | ⟨hmid, hbound, rfl⟩
        · rw [hmid] at hp
          have hcount : p + 0 = 2 * (b - t.seq.polls) := hp
          exact ⟨rfl, p - 1, by omega, hbusy, hpins, hflags, hpolls,
            show p - 1 + 1 = 2 * (b - t.seq.polls) by omega⟩
        · rw [hmid] at hp
          have hcount : p + 1 = 2 * (b - t.seq.polls) := hp
          have hnext : t.seq.polls + 1 < b := by
            refine lt_of_le_of_ne hpolls fun hlast => hbound ?_
            rw [hflags, hlast]
          exact ⟨rfl, p - 1, by omega, hbusy, hpins, hflags, hnext,
            show p - 1 + 0 = 2 * (b - (t.seq.polls + 1)) by omega⟩
      | leave r =>
        obtain ⟨k, hk, rfl⟩ := pollAnswer_leave hr
        exact ⟨hk, rfl, hbusy, hpins, hflags, rfl, rfl⟩

/-! ## What a list of steps costs -/

/-- The list takes at most `n` answers, from `K` steps on, and waits only if fewer are left. -/
def ListCosts (K : Nat → Prop) (a b n : Nat) (ms : List MicroStep) : Prop := ∀ k s, K k → Counting a b s →
  (runSteps ms k s).Post (fun k t => K k ∧ Counting a b t ∧ s.left ≤ t.left + n) (fun _ => True) (fun _ => s.left < n)

omit hK in
theorem stable_counting (n : Nat) : Stable (fun s => Counting a b s ∧ s.left = n) fun _ => True where
  toUndisturbed := undisturbed_counters (Q := fun s m => Counting a b s ∧ m = n)
    fun _ _ _ hsame h => ⟨h.1.of_same hsame, h.2⟩
  phase h := ⟨h.1.of_same ⟨rfl, rfl, rfl, rfl⟩, h.2⟩

omit hK in
theorem listCosts_nil : ListCosts K a b 0 [] := fun _ _ hk hs => ⟨hk, hs, le_rfl⟩

theorem listCosts_cons {m : MicroStep} {ms : List MicroStep} {p q : Nat} (hm : Costs K a b p m)
    (hms : ListCosts K a b q ms) : ListCosts K a b (p + q) (m :: ms) := by
  intro k s hk hs
  cases k with
  | succ k =>
    exact (hms k s.nextPhase (hK.pred k hk) (hs.of_same ⟨rfl, rfl, rfl, rfl⟩)).imp
      (fun _ t ⟨hk, ht, h⟩ => ⟨hk, ht, h.trans (by omega)⟩) (fun _ h => h) fun _ h => lt_of_lt_of_le h (Nat.le_add_left q p)
  | zero =>
    refine runSteps_cons_post (stable_counting s.left) (fun {t} ht => ?_) ⟨hs, rfl⟩
    refine (hm t ht.1).imp (fun k u ⟨hk, hu, hleft⟩ => ?_) (fun _ h => h) fun _ h => by omega
    have hnext : u.nextPhase.left = u.left := rfl
    exact (hms k u.nextPhase hk (hu.of_same ⟨rfl, rfl, rfl, rfl⟩)).imp (fun _ v ⟨hk, hv, h⟩ => ⟨hk, hv, by omega⟩)
      (fun _ h => h) fun _ h => by omega

omit hK in
theorem listCosts_append {ms ms' : List MicroStep} {p q : Nat} (h : ListCosts K a b p ms) (h' : ListCosts K a b q ms') :
    ListCosts K a b (p + q) (ms ++ ms') := by
  intro k s hk hs
  refine runSteps_append_post ((h k s hk hs).imp (fun k t ⟨hk, ht, hleft⟩ => ?_) (fun _ h => h) fun _ h => by omega)
  exact (h' k t hk ht).imp (fun _ u ⟨hk, hu, h⟩ => ⟨hk, hu, by omega⟩) (fun _ h => h) fun _ h => by omega

/-- Steps that cost `p` each. -/
theorem listCosts_all {ms : List MicroStep} {p : Nat} (h : ∀ m ∈ ms, Costs K a b p m) :
    ListCosts K a b (p * ms.length) ms := by
  induction ms with
  | nil => exact listCosts_nil
  | cons m ms ih =>
    have hcost : p * (m :: ms).length = p + p * ms.length := by rw [List.length_cons, Nat.mul_succ, Nat.add_comm]
    rw [hcost]
    exact listCosts_cons hK (h m List.mem_cons_self) (ih fun m' hm' => h m' (List.mem_cons_of_mem m hm'))

omit hK in
theorem listCosts_flatMap {α : Type} (l : List α) {f : α → List MicroStep} {p : Nat}
    (h : ∀ x, ListCosts K a b p (f x)) : ListCosts K a b (p * l.length) (l.flatMap f) := by
  induction l with
  | nil => exact listCosts_nil
  | cons x l ih =>
    have hcost : p * (x :: l).length = p + p * l.length := by rw [List.length_cons, Nat.mul_succ, Nat.add_comm]
    rw [hcost, List.flatMap_cons]
    exact listCosts_append (h x) ih

end

end Sys2Proof.Machine
end

section
/-! PROOFS. What each operation costs in answers (60_exceptions.md R310), and that it ends when it has them. -/

namespace Sys2Proof.Machine

section
variable {a b : Nat}

/-- What a list costs when any number of steps may be passed over. -/
abbrev CostsAtMost (a b n : Nat) (ms : List MicroStep) : Prop := ListCosts (fun _ => True) a b n ms

theorem costsAtMost_silent {m : MicroStep} {ms : List MicroStep} {n : Nat} (hm : Costs (fun _ => True) a b 0 m)
    (hms : CostsAtMost a b n ms) : CostsAtMost a b n (m :: ms) :=
  Nat.zero_add n ▸ listCosts_cons passing_any hm hms

theorem costsAtMost_single {m : MicroStep} {n : Nat} (hm : Costs (fun _ => True) a b n m) : CostsAtMost a b n [m] :=
  listCosts_cons passing_any hm listCosts_nil

theorem costsAtMost_asks {ms : List MicroStep} (h : ∀ m ∈ ms, Costs (fun _ => True) a b 1 m) :
    CostsAtMost a b ms.length ms := by
  have hall := listCosts_all passing_any h
  rwa [Nat.one_mul] at hall

/-! ## PTC -/

theorem costs_measureT : CostsAtMost a b 2 measureT :=
  listCosts_cons passing_any (costs_twAccess passing_any) <| costsAtMost_silent (costs_perform passing_any) <|
    listCosts_cons passing_any (costs_twAccess passing_any) <| costsAtMost_single (costs_act passing_any)

theorem costs_ptInit : CostsAtMost a b 11 ptInitSteps := by
  refine costsAtMost_silent (costs_guardStep passing_any) (costsAtMost_silent (costs_act passing_any) ?_)
  refine listCosts_append (costsAtMost_asks fun m hm => ?_) (costsAtMost_single costs_finish)
  obtain ⟨n, -, rfl⟩ := List.mem_map.mp hm
  exact costs_twAccess passing_any

theorem costs_ptReadT : CostsAtMost a b 2 ptReadTSteps :=
  costsAtMost_silent (costs_guardStep passing_any) (listCosts_append costs_measureT (costsAtMost_single costs_finish))

theorem costs_ptReadP : CostsAtMost a b 4 ptReadPSteps :=
  costsAtMost_silent (costs_guardStep passing_any) <| listCosts_append (q := 2) costs_measureT <|
    listCosts_cons passing_any (costs_twAccess passing_any) <| costsAtMost_silent (costs_perform passing_any) <|
    listCosts_cons passing_any (costs_twAccess passing_any) <| costsAtMost_single costs_finish

/-! ## SWD -/

theorem keepsCounters_decodeFrame : KeepsCounters decodeFrame := by
  intro s
  rw [decodeFrame_eq]
  exact ⟨⟨rfl, rfl, rfl, rfl⟩, rfl⟩

section
variable (ha : 1 ≤ a)
include ha

theorem costs_sampleBit (n : Nat) : CostsAtMost a b (2 * a + 1) (sampleBit n) := by
  have hsample : Costs (fun _ => True) a b 1 sampleStep := costs_ask fun _ _ hs =>
    ⟨trivial, rfl, hs.of_same ⟨rfl, rfl, rfl, rfl⟩⟩
  have hbit : CostsAtMost a b (a + (1 + a)) (sampleBit n) :=
    listCosts_cons passing_any (costs_waitWhile passing_any ha false (BitVec.ofNat 8 (0x40 + n))) <|
      costsAtMost_silent (costs_perform passing_any) <| listCosts_cons passing_any hsample <|
      costsAtMost_single (costs_waitWhile passing_any ha true (BitVec.ofNat 8 (0x80 + n)))
  have hcost : a + (1 + a) = 2 * a + 1 := by omega
  rwa [hcost] at hbit

theorem costs_swAnswered : CostsAtMost a b (2 * a + 40 * (2 * a + 1)) swAnswered := by
  have hwaits := listCosts_cons passing_any (costs_waitWhile (b := b) passing_any ha false 0x06) <|
    listCosts_cons passing_any (costs_waitWhile passing_any ha true 0x07) <|
    costsAtMost_single (costs_act passing_any (f := fun s => { s with seq := { s.seq with acc := 0 } }))
  have hbits := listCosts_flatMap (K := fun _ => True) (List.range Config.swBits) (costs_sampleBit (b := b) ha)
  have hlist := listCosts_append (listCosts_append hwaits hbits)
    (costsAtMost_single (costs_act passing_any keepsCounters_decodeFrame))
  have hcost : a + (a + 0) + (2 * a + 1) * (List.range Config.swBits).length + 0 = 2 * a + 40 * (2 * a + 1) := by
    rw [List.length_range, Config.swBits]
    omega
  rwa [hcost] at hlist

theorem costs_readSteps (value : Swd → Word) :
    CostsAtMost a b (1 + 2 * a + 40 * (2 * a + 1)) (readSteps value) := by
  have hresponse : Costs (fun _ => True) a b 1 responseCheck := by
    refine costs_ask fun x s hs => ?_
    split
    · exact ⟨trivial, rfl, hs.of_same ⟨rfl, rfl, rfl, rfl⟩⟩
    · exact ⟨trivial, rfl, hs⟩
  have hlist : CostsAtMost a b (1 + (2 * a + 40 * (2 * a + 1) + 0)) (readSteps value) :=
    costsAtMost_silent (costs_guardStep passing_any) <| costsAtMost_silent (costs_perform passing_any) <|
      costsAtMost_silent (costs_perform passing_any) <| costsAtMost_silent (costs_perform passing_any) <|
      costsAtMost_silent (costs_perform passing_any) <| listCosts_cons passing_any hresponse <|
      listCosts_append (costs_swAnswered ha) (costsAtMost_single costs_finish)
  have hcost : 1 + (2 * a + 40 * (2 * a + 1) + 0) = 1 + 2 * a + 40 * (2 * a + 1) := by omega
  rwa [hcost] at hlist

end

/-! ## FTR -/

theorem costs_flushSteps : CostsAtMost a b 7 flushSteps := by
  refine costsAtMost_asks ?_
  simp only [flushSteps, List.forall_mem_cons]
  have hwrite {prim : State → Prim} {k : Byte} : Costs (fun _ => True) a b 1 (twAccess prim k fun _ s => s) :=
    costs_twAccess passing_any
  exact ⟨hwrite, hwrite, hwrite, hwrite, hwrite, hwrite, hwrite, fun _ h => nomatch h⟩

theorem costs_textSteps : CostsAtMost a b 7 textSteps :=
  costsAtMost_silent (costs_guardStep passing_any) <| costsAtMost_silent (costs_guardStep passing_any) <|
    costsAtMost_silent (costs_act passing_any) <| listCosts_append costs_flushSteps (costsAtMost_single costs_finish)

theorem costs_dspInit (c : DspConfig) : CostsAtMost a b (c.initList.length + 7) (dspInitSteps c) := by
  have hlist : CostsAtMost a b c.initList.length (initListSteps c) := by
    have hall : CostsAtMost a b (initListSteps c).length (initListSteps c) := by
      refine costsAtMost_asks fun m hm => ?_
      obtain ⟨e, -, rfl⟩ := List.mem_map.mp hm
      exact costs_twAccess passing_any
    rwa [initListSteps, List.length_map] at hall
  have hclear : CostsAtMost a b 7 clearAndFlush := costsAtMost_silent (costs_act passing_any) costs_flushSteps
  have hhead : CostsAtMost a b 0 [guardStep fun s => displayOperands s.operands, act setGeometry] :=
    costsAtMost_silent (costs_guardStep passing_any) (costsAtMost_single (costs_act passing_any))
  have hall := listCosts_append (listCosts_append (listCosts_append hhead hlist) hclear)
    (costsAtMost_single (costs_finish (f := fun s => { s with dsp := { s.dsp with init := true } })))
  rwa [Nat.zero_add] at hall

/-! ## RFC -/

section
variable {K : Nat → Prop} (hK : Passing K)
include hK

theorem costs_rfWrite {reg : State → RfReg} {v : State → Byte} {f : State → State}
    (hf : KeepsCounters f) : ∀ m ∈ rfWrite reg v f, Costs K a b 1 m :=
  List.forall_mem_cons.mpr ⟨costs_spiStep hK, List.forall_mem_singleton.mpr (costs_spiStep hK hf)⟩

theorem costs_setMode (mode : RfMode) : ∀ m ∈ setMode mode, Costs K a b 1 m := costs_rfWrite hK fun _ => ⟨⟨rfl, rfl, rfl, rfl⟩, rfl⟩

omit hK in
theorem keepsCounters_id : KeepsCounters id := fun _ => ⟨⟨rfl, rfl, rfl, rfl⟩, rfl⟩

theorem costs_rfWriteAll (l : List (RfReg × Byte)) : ∀ m ∈ rfWriteAll l, Costs K a b 1 m := by
  intro m hm
  obtain ⟨rv, -, hm⟩ := List.mem_flatMap.mp hm
  exact costs_rfWrite hK keepsCounters_id m hm

end

theorem costs_append {K : Nat → Prop} {ms ms' : List MicroStep} (h : ∀ m ∈ ms, Costs K a b 1 m)
    (h' : ∀ m ∈ ms', Costs K a b 1 m) : ∀ m ∈ ms ++ ms', Costs K a b 1 m := List.forall_mem_append.mpr ⟨h, h'⟩

theorem costs_configureSteps (c : RfConfig) : ∀ m ∈ configureSteps c, Costs (fun _ => True) a b 1 m := by
  have hwrite {reg : State → RfReg} {v : State → Byte} : ∀ m ∈ rfWrite reg v id, Costs (fun _ => True) a b 1 m :=
    costs_rfWrite passing_any keepsCounters_id
  have hall := costs_rfWriteAll (a := a) (b := b) passing_any
  exact costs_append (costs_append (costs_append (costs_append (costs_append (costs_append (costs_append hwrite hwrite)
    hwrite) (hall _)) hwrite) (hall _)) hwrite) (costs_setMode passing_any _)

theorem costs_rfInit (c : RfConfig) :
    CostsAtMost a b (2 * (7 + c.modemWrites.length + c.preambleWrites.length)) (rfInitSteps c) := by
  have hsleep : CostsAtMost a b 2 (setMode .sleep) := costsAtMost_asks (costs_setMode passing_any _)
  have hconfigure : CostsAtMost a b (configureSteps c).length (configureSteps c) :=
    costsAtMost_asks (costs_configureSteps c)
  have hlist : CostsAtMost a b (2 + ((configureSteps c).length + 0)) (rfInitSteps c) := by
    rw [rfInitSteps_eq]
    exact listCosts_append hsleep <| costsAtMost_silent (costs_perform passing_any) <|
      costsAtMost_silent (costs_act passing_any) <| listCosts_append hconfigure <|
      costsAtMost_silent (costs_perform passing_any) <| costsAtMost_single costs_finish
  have hcost : 2 + ((configureSteps c).length + 0) = 2 * (7 + c.modemWrites.length + c.preambleWrites.length) := by
    rw [length_configureSteps]
    omega
  rwa [hcost] at hlist

theorem costs_packetSteps (payload : List Byte) :
    ListCosts (· = 0) a b (12 + 2 * payload.length) (packetSteps payload) := by
  have hwrite {reg : State → RfReg} {v : State → Byte} : ∀ m ∈ rfWrite reg v id, Costs (· = 0) a b 1 m :=
    costs_rfWrite passing_none keepsCounters_id
  have hpayload : ∀ m ∈ payload.flatMap fun b => rfWrite (fun s => s.cfg.rf.regFifo) (fun _ => b) id,
      Costs (· = 0) a b 1 m := by
    intro m hm
    obtain ⟨b, -, hm⟩ := List.mem_flatMap.mp hm
    exact hwrite m hm
  have hsteps : ∀ m ∈ packetSteps payload, Costs (· = 0) a b 1 m :=
    costs_append (costs_append (costs_append (costs_append (costs_append (costs_append
      (costs_setMode passing_none .standby) hwrite) hwrite) hwrite) hwrite) hpayload) (costs_setMode passing_none .transmit)
  have hall := listCosts_all passing_none hsteps
  rwa [Nat.one_mul, length_packetSteps] at hall

/-- What stands after a finishing step is never reached. -/
theorem listCosts_then_finish {n : Nat} {ms rest : List MicroStep} {f : State → State} (hms : ListCosts (· = 0) a b n ms)
    {s : State} (hs : Counting a b s) :
    (runSteps (ms ++ finish f :: rest) 0 s).Post (fun _ _ => True) (fun _ => True) (fun _ => s.left < n) := by
  refine runSteps_append_post ((hms 0 s rfl hs).imp (fun k t ⟨hk, ht, _⟩ => ?_) (fun _ h => h) fun _ h => h)
  subst hk
  exact runSteps_cons_post (stable_counting t.left) (W := fun _ => s.left < n)
    (m := finish f) (fun _ => trivial) ⟨ht, rfl⟩

/-- After a poll that saw the flag four bytes are left, after one that did not two (R262, R263). -/
theorem afterPoll_costs {k : Nat} (hk : k = 0 ∨ k = afterTxDone.length) {s : State} (hs : Counting a b s) :
    (runSteps (afterTxDone ++ afterTxTimeout) k s).Post (fun _ _ => True) (fun _ => True) (fun _ => s.left < 4) := by
  rcases hk with rfl | rfl
  · have hwrites : ListCosts (· = 0) a b 4
        (rfWrite (fun s => s.cfg.rf.regIrqFlags) (fun _ => 0xFF) id ++ setMode .standby) :=
      listCosts_all passing_none
        (costs_append (costs_rfWrite passing_none keepsCounters_id) (costs_setMode passing_none .standby))
    exact listCosts_then_finish hwrites hs
  · have htimeout : ListCosts (· = 0) a b 2 afterTxTimeout :=
      listCosts_append (listCosts_all passing_none (costs_setMode passing_none .standby))
        (listCosts_cons passing_none (costs_guardStep passing_none) listCosts_nil)
    rw [runSteps_passOver _ _ _ (by simp), List.drop_left]
    have hpassed : Counting a b { s with seq := { s.seq with phase := s.seq.phase + afterTxDone.length } } :=
      hs.of_same ⟨rfl, rfl, rfl, rfl⟩
    exact (htimeout 0 _ rfl hpassed).imp (fun _ _ _ => trivial) (fun _ _ => trivial)
      fun _ h => Nat.lt_of_lt_of_le h (by decide : 2 ≤ 4)

theorem costs_rfSend (payload : List Byte) {s : State} (hs : Counting a b s) :
    (runSteps (rfSendSteps payload) 0 s).Post (fun _ _ => True) (fun _ => True)
      (fun _ => s.left < 2 * (8 + payload.length + b)) := by
  have hhead : ListCosts (· = 0) a b (0 + (0 + (12 + 2 * payload.length)))
      (guardStep (fun s => sendOperands s.operands) :: needsInit (fun s => s.rf.init) 4 :: packetSteps payload) :=
    listCosts_cons passing_none (costs_guardStep passing_none) <|
      listCosts_cons passing_none (costs_guardStep passing_none) (costs_packetSteps payload)
  rw [rfSendSteps_eq]
  refine runSteps_append_post ((hhead 0 s rfl hs).imp (fun k t ⟨hk, ht, hleft⟩ => ?_) (fun _ _ => trivial)
    fun _ h => by omega)
  subst hk
  refine runSteps_cons_post (stable_counting t.left) (fun {u} ⟨hu, hut⟩ => ?_) ⟨ht, rfl⟩
  refine (waitTxDone_costs hu).imp (fun k v ⟨hk, hv, hv'⟩ => ?_) (fun _ h => h) fun _ h => by omega
  refine (afterPoll_costs (s := v.nextPhase) hk (hv.of_same ⟨rfl, rfl, rfl, rfl⟩)).imp (fun _ _ h => h) (fun _ h => h)
    fun _ h => ?_
  have hnext : v.nextPhase.left = v.left := rfl
  omega

/-! ## Every operation -/

theorem ListCosts.post {n : Nat} {ms : List MicroStep} (h : CostsAtMost a b n ms) {s : State} (hs : Counting a b s) :
    (runSteps ms 0 s).Post (fun _ _ => True) (fun _ => True) (fun _ => s.left < n) :=
  (h 0 s trivial hs).imp (fun _ _ _ => trivial) (fun _ h => h) fun _ h => h

/-- R310: an operation that waits has been given fewer answers than it needs. -/
theorem programOf_costs (ha : 1 ≤ a) (i : Instr) {s : State} (hs : Counting a b s) :
    (runSteps (programOf i s) 0 s).Post (fun _ _ => True) (fun _ => True) (fun _ => s.left < answersNeeded i s a b) := by
  cases i with
  | ptInit => exact costs_ptInit.post hs
  | ptReadT => exact costs_ptReadT.post hs
  | ptReadP => exact costs_ptReadP.post hs
  | swReadT => exact (costs_readSteps ha Swd.temperature).post hs
  | swReadH => exact (costs_readSteps ha Swd.humidity).post hs
  | swSetCal =>
    exact ListCosts.post (costsAtMost_single costs_finish) hs
  | dspInit => exact (costs_dspInit _).post hs
  | dspClear =>
    exact ListCosts.post (costsAtMost_silent (costs_guardStep passing_any) <|
      costsAtMost_silent (costs_act passing_any) <| listCosts_append costs_flushSteps (costsAtMost_single costs_finish)) hs
  | dspShowStr => exact ListCosts.post (costsAtMost_silent (costs_guardStep passing_any) costs_textSteps) hs
  | dspShowNum =>
    exact ListCosts.post (costsAtMost_silent (costs_guardStep passing_any) <|
      costsAtMost_silent (costs_act passing_any) costs_textSteps) hs
  | rfInit => exact (costs_rfInit _).post hs
  | rfSend =>
    have hpost := costs_rfSend s.text hs
    rwa [text_length] at hpost
  | rfOnRecv => exact ListCosts.post (costsAtMost_single costs_finish) hs

theorem counting_start {s : State} {op : Byte} (ha : s.cfg.swPollMax = some a)
    (hb : s.cfg.rf.pollMax = some b) : Counting a b (s.start op) := ⟨rfl, ha, hb, rfl, rfl⟩

end

/-- Settles O51: from idle every step costs a bounded number of answers, and the bounds of the steps add up to
`answersNeeded`, so that an operation that waits has been given fewer. -/
theorem boundedWaitsEnd : Obligations.BoundedWaitsEnd := by
  intro i s t a b hidle hpins ha hflags hgiven hexec
  refine Bool.eq_false_of_not_eq_true fun hbusy => ?_
  have hpost := programOf_costs ha i (counting_start (op := opcodeOf i) hpins hflags)
  rw [← runOf_of_idle hidle, runOf_eq_wait hexec hbusy] at hpost
  exact absurd hgiven (Nat.not_le_of_lt hpost)

end Sys2Proof.Machine
end

section
/-! PROOFS. `RF.SEND` whose poll sees the transmit-done bit (43_radio.md R260, R262). -/

namespace Sys2Proof.Machine

/-! ## Up to the poll -/

/-- What an `RF.SEND` that passes the checks does is what its steps after the packet do. -/
theorem runOf_rfSend_of_packet {s : State} {as : List Answer} {l : List Input} (hidle : s.idle)
    (harg : s.host.arg0.toNat ≤ 255) (hlen : s.host.len.toNat ≤ 254) (hinit : s.rf.init = true)
    (has : as.length = 2 * (6 + s.host.len.toNat)) (hin : s.env.inputs = answers as ++ l) (hquiet : quiet l = true) :
    s.runOf .rfSend = runSteps (waitTxDone :: (afterTxDone ++ afterTxTimeout)) 0
      ((s.inMode .transmit).atStep 0x41 (15 + 2 * s.host.len.toNat) l
        (spiEvents (sendBytes s.cfg.rf (s.host.arg0.setWidth 8) s.host.len s.text) as)) := by
  have hquietAll : quiet s.env.inputs = true := hin ▸ quiet_answers_append as hquiet
  have hbytes : as.length = (sendBytes s.cfg.rf (s.host.arg0.setWidth 8) s.host.len s.text).length := by
    rw [length_sendBytes, text_length, has]
  have hphase : 1 + 1 + 1 + (sendBytes s.cfg.rf (s.host.arg0.setWidth 8) s.host.len s.text).length =
      15 + 2 * s.host.len.toNat := by omega
  rw [runOf_of_idle hidle, start_eq_inFlight]
  refine (congrArg (fun ms => runSteps ms 0 _) (rfSendSteps_eq s.text)).trans ?_
  refine (runSteps_guard_passes hquietAll (sendOperands_of_ok harg hlen)).trans ?_
  refine (runSteps_guard_passes hquietAll (if_pos hinit)).trans ?_
  rw [hin, ← hphase]
  exact (sends_packetSteps s s.text).run 0x41 _ l [] hbytes

/-! ## The poll -/

/-- Reads that return with the bit clear, short of the bound. -/
theorem waitTxDone_clears {s : State} {as : List Answer} {k : Nat} {rest : List Input}
    (hin : s.env.inputs = answers as ++ rest) (hmid : s.seq.midRead = false) (hlength : as.length = 2 * k)
    (hbound : ∀ j < k, s.cfg.rf.pollMax ≠ some (s.seq.polls + j))
    (hclear : ∀ j < k, flagIn s.cfg.rf as (2 * j + 1) = false) :
    waitTxDone s =
      waitTxDone (s.polled false (s.seq.polls + k) rest (spiEvents (pollBytes s.cfg.rf k) as)) := by
  induction k generalizing s as with
  | zero =>
    obtain rfl := List.length_eq_zero_iff.mp hlength
    obtain rfl : s.env.inputs = rest := hin
    have hself : s.polled false (s.seq.polls + 0) s.env.inputs (spiEvents (pollBytes s.cfg.rf 0) []) = s := by
      simp [State.polled, spiEvents, ← hmid]
    rw [hself]
  | succ k ih =>
    obtain ⟨a, later, rfl⟩ := List.exists_cons_of_length_eq_add_one hlength
    obtain ⟨b, later, rfl⟩ := List.exists_cons_of_length_eq_add_one (Nat.succ.inj hlength)
    have hnext (j : Nat) (hj : j < k) : s.cfg.rf.pollMax ≠ some (s.seq.polls + 1 + j) := by
      rw [Nat.add_assoc, Nat.add_comm 1]
      exact hbound (j + 1) (Nat.succ_lt_succ hj)
    refine (waitTxDone_clear (rest := answers later ++ rest) hin hmid (hbound 0 (Nat.succ_pos k))
      (hclear 0 (Nat.succ_pos k))).trans ?_
    refine (ih (s := s.polled false _ _ _) rfl rfl (Nat.succ.inj (Nat.succ.inj hlength)) hnext
      fun j hj => hclear (j + 1) (Nat.succ_lt_succ hj)).trans ?_
    have hcount : s.seq.polls + (k + 1) = s.seq.polls + 1 + k := by omega
    rw [State.polled_polled, hcount]
    rfl

/-- The second byte of a read, with the bit set: the poll is over (R262 W5). -/
theorem serve_poll_set {s : State} (hmid : s.seq.midRead = true) {a : Answer} (rest : List Input)
    (hset : a.data.setWidth 8 &&& s.cfg.rf.irqTxDone ≠ 0) :
    serve pollPrim pollAnswer (.answer a :: rest) s =
      .go 0 (s.polled false 0 rest (spiEvents [s.cfg.rf.dummy] [a])) := by
  have hprim : pollPrim s = .spiXfer s.cfg.rf.dummy := if_pos hmid
  have hbits : (((a.data.setWidth 8).setWidth 24).setWidth 8 : Byte) &&& s.cfg.rf.irqTxDone ≠ 0 := by
    rw [BitVec.setWidth_setWidth_of_le _ (by decide), BitVec.setWidth_eq]
    exact hset
  rw [serve_answer, hprim, Prim.returns_spiXfer, pollAnswer, if_neg (by exact ne_false_of_eq_true hmid),
    if_pos (by exact hbits)]
  rfl

/-- A read that returns with the bit set ends the poll. -/
theorem waitTxDone_set {s : State} {a b : Answer} {rest : List Input}
    (hin : s.env.inputs = .answer a :: .answer b :: rest) (hmid : s.seq.midRead = false)
    (hbound : s.cfg.rf.pollMax ≠ some s.seq.polls) (hset : flagIn s.cfg.rf [a, b] 1 = true) :
    waitTxDone s = .go 0 (s.polled false 0 rest (spiEvents (pollBytes s.cfg.rf 1) [a, b])) := by
  have hflag : b.data.setWidth 8 &&& s.cfg.rf.irqTxDone ≠ 0 := by
    simpa [flagIn] using hset
  rw [waitTxDone_asks hbound, hin, serve_poll_address hmid]
  refine (serve_poll_set (s := s.polled true _ _ _) rfl rest hflag).trans ?_
  rw [State.polled_polled]
  rfl

/-- R260 steps 12 and 13: the flags are cleared, Standby is written, and the operation is over. -/
theorem runSteps_poll_seen {s : State} {opc : Byte} {n j : Nat} {polls close : List Answer} {rest : List Input}
    {events : List Event} (hj : 1 ≤ j) (hpolls : polls.length = 2 * j) (hclose : close.length = 4)
    (hmax : withinBound s.cfg.rf.pollMax (j - 1))
    (hflag : ∀ k < j, flagIn s.cfg.rf polls (2 * k + 1) = decide (k + 1 = j)) (hquiet : quiet rest = true) :
    runSteps (waitTxDone :: (afterTxDone ++ afterTxTimeout)) 0
        (s.atStep opc n (answers polls ++ (answers close ++ rest)) events) =
      .ended (((s.inMode .standby).after opc rest (events ++ spiEvents (pollBytes s.cfg.rf j) polls ++
        spiEvents (closeBytes s.cfg.rf) close)).done) := by
  obtain ⟨k, rfl⟩ := Nat.exists_eq_add_of_le' hj
  obtain ⟨clear, seen, rfl, hclear, hseen⟩ : ∃ clear seen, polls = clear ++ seen ∧ clear.length = 2 * k ∧
      seen.length = 2 := ⟨polls.take (2 * k), polls.drop (2 * k), (List.take_append_drop _ _).symm,
    List.length_take_of_le (by omega), by rw [List.length_drop]; omega⟩
  obtain ⟨x, y, rfl⟩ := List.length_eq_two.mp hseen
  have hnext (m : Nat) (hm : m ≤ k) : s.cfg.rf.pollMax ≠ some (0 + m) := fun h => by
    have := hmax _ h
    omega
  have hearly (m : Nat) (hm : m < k) : flagIn s.cfg.rf clear (2 * m + 1) = false := by
    rw [← flagIn_append_left [x, y] (by omega), hflag m (by omega), decide_eq_false_iff_not]
    omega
  have hset : flagIn s.cfg.rf [x, y] 1 = true := by
    rw [← flagIn_append_right _ clear, hclear, hflag k (Nat.lt_succ_self k), decide_eq_true_eq]
  have hpoll : waitTxDone (s.atStep opc n (answers (clear ++ [x, y]) ++ (answers close ++ rest)) events) =
      .go 0 (s.atStep opc n (answers close ++ rest)
        (events ++ spiEvents (pollBytes s.cfg.rf (k + 1)) (clear ++ [x, y]))) := by
    have hbytes : clear.length = (pollBytes s.cfg.rf k).length := by rw [length_pollBytes, hclear]
    have hsum : pollBytes s.cfg.rf (k + 1) = pollBytes s.cfg.rf k ++ pollBytes s.cfg.rf 1 := by
      rw [pollBytes, List.replicate_add, List.flatten_append]
      rfl
    rw [answers_append, List.append_assoc]
    refine (waitTxDone_clears (s := s.atStep opc n _ events) rfl rfl hclear (fun m hm => hnext m hm.le) hearly).trans ?_
    refine (waitTxDone_set (s := (s.atStep opc n _ events).polled false (0 + k) (answers [x, y] ++ _) _) rfl rfl
      (hnext k le_rfl) hset).trans ?_
    rw [State.polled_polled, State.atStep_polled, hsum, spiEvents_append hbytes]
    rfl
  have hclosing := (sends_register s (·.cfg.rf.regIrqFlags) fun _ => 0xFF).append (sends_setMode s .standby)
  rw [runSteps_go (quiet_answers_append _ (quiet_answers_append close hquiet)) hpoll, State.inFlight_nextPhase]
  refine (congrArg (fun ms => runSteps ms 0 _) (List.append_assoc _ [finish id] afterTxTimeout)).trans ?_
  refine (hclosing.run opc (n + 1) rest _ hclose).trans ?_
  exact runSteps_ended hquiet rfl

/-! ## The statement -/

/-- Settles O35: the bytes before the poll, the poll with its last read, and the two writes that close. -/
theorem radioSend : Obligations.RadioSend := by
  intro s as j rest hidle harg hlen hinit hj hmax hlength hflag hin hquiet
  obtain ⟨sent, polls, close, rfl, hsent, hpolls, hclose⟩ := exists_split_answers (as := as)
    (i := 2 * (6 + s.host.len.toNat)) (j := 2 * j) (k := 4) (by omega)
  have hbits (k : Nat) (hk : k < j) : flagIn s.cfg.rf polls (2 * k + 1) = decide (k + 1 = j) := by
    have hplace : 2 * (6 + s.host.len.toNat + k) + 1 = sent.length + (2 * k + 1) := by omega
    rw [← hflag k hk, hplace, List.append_assoc, flagIn_append_right, flagIn_append_left close (by omega)]
  have hbytes : sent.length = (sendBytes s.cfg.rf (s.host.arg0.setWidth 8) s.host.len s.text).length := by
    rw [length_sendBytes, text_length, hsent]
  have hreads : polls.length = (pollBytes s.cfg.rf j).length := by
    rw [length_pollBytes, hpolls]
  rw [answers_append, answers_append, List.append_assoc, List.append_assoc] at hin
  rw [spiEvents_append (by rw [List.length_append, List.length_append, hbytes, hreads]), spiEvents_append hbytes]
  have hmore := quiet_answers_append polls (quiet_answers_append close hquiet)
  rw [exec_eq_runOf, runOf_rfSend_of_packet hidle harg hlen hinit hsent hin hmore]
  exact congrArg (fun r => Host.Outcome.next (Stepped.state r))
    (runSteps_poll_seen (s := s.inMode .transmit) hj hpolls hclose hmax hbits hquiet)

end Sys2Proof.Machine
end

section
/-! PROOFS. With an infinite bound a loop that never sees what it waits for never ends (41_single_wire.md R181,
43_radio.md R262). -/

namespace Sys2Proof.Machine

/-! ## The poll of `RF.SEND` -/

theorem pollBytes_add (c : RfConfig) (m n : Nat) : pollBytes c (m + n) = pollBytes c m ++ pollBytes c n := by
  rw [pollBytes, List.replicate_add, List.flatten_append]
  rfl

/-- Nothing is sent for an answer that has not come. -/
theorem spiEvents_nil (bs : List Byte) : spiEvents bs [] = [] := List.zipWith_nil_right

theorem quiet_answers (as : List Answer) : quiet (answers as) = true :=
  List.append_nil (answers as) ▸ quiet_answers_append as rfl

/-- With an infinite bound the poll takes the answers there are and waits, in the middle of a read if their number is
odd. -/
theorem waitTxDone_waits {s : State} {as : List Answer} {m : Nat} (hin : s.env.inputs = answers as)
    (hmid : s.seq.midRead = false) (hbound : s.cfg.rf.pollMax = none) (hm : as.length < 2 * m)
    (hclear : ∀ j, 2 * j + 1 < as.length → flagIn s.cfg.rf as (2 * j + 1) = false) :
    waitTxDone s = .wait (s.polled (decide (as.length % 2 = 1)) (s.seq.polls + as.length / 2) []
      (spiEvents (pollBytes s.cfg.rf m) as)) := by
  obtain ⟨clear, tail, rfl, hlength, htail⟩ : ∃ clear tail, as = clear ++ tail ∧ clear.length = 2 * (as.length / 2) ∧
      tail.length = as.length % 2 := ⟨as.take (2 * (as.length / 2)), as.drop (2 * (as.length / 2)),
    (List.take_append_drop _ _).symm, List.length_take_of_le (by omega), by rw [List.length_drop]; omega⟩
  generalize hk : (clear ++ tail).length / 2 = k at hlength ⊢
  rw [List.length_append] at hm hk htail
  have hasks (n : Nat) : s.cfg.rf.pollMax ≠ some n := hbound ▸ nofun
  have hearly (j : Nat) (hj : j < k) : flagIn s.cfg.rf clear (2 * j + 1) = false := by
    rw [← flagIn_append_left tail (by omega)]
    exact hclear j (by rw [List.length_append]; omega)
  have hbytes : clear.length = (pollBytes s.cfg.rf k).length := by rw [length_pollBytes, hlength]
  obtain ⟨n, rfl⟩ : ∃ n, m = k + (n + 1) := ⟨m - k - 1, by omega⟩
  rw [answers_append] at hin
  have hgoes := waitTxDone_asks (s := s.polled false (s.seq.polls + k) (answers tail)
    (spiEvents (pollBytes s.cfg.rf k) clear)) (hasks _)
  rw [waitTxDone_clears hin hmid hlength (fun _ _ => hasks _) hearly, pollBytes_add, spiEvents_append hbytes, hgoes]
  cases tail with
  | nil =>
    rw [spiEvents_nil, List.append_nil, List.append_nil, hlength, Nat.mul_mod_right]
    rfl
  | cons x tail =>
    obtain rfl : tail = [] := List.length_eq_zero_iff.mp (by rw [List.length_cons] at htail; omega)
    have hodd : (clear ++ [x]).length % 2 = 1 := by rw [List.length_append, hlength, List.length_singleton]; omega
    rw [hodd]
    refine (serve_poll_address (s := s.polled false _ (answers [x]) _) rfl x []).trans ?_
    rw [State.polled_polled]
    rfl

/-- The second clause of O56. -/
theorem rfSend_waits {s : State} {as : List Answer} (hidle : s.idle) (hin : s.env.inputs = answers as)
    (harg : s.host.arg0.toNat ≤ 255) (hlen : s.host.len.toNat ≤ 254) (hinit : s.rf.init = true)
    (hbound : s.cfg.rf.pollMax = none) {m : Nat} (hm : m = 2 * (6 + s.host.len.toNat)) (hsent : m ≤ as.length)
    (hclear : ∀ k < as.length, m + 2 * k + 1 < as.length → flagIn s.cfg.rf as (m + 2 * k + 1) = false) :
    exec .rfSend s = .next { s.after 0x41 []
        (spiEvents (sendBytes s.cfg.rf (s.host.arg0.setWidth 8) s.host.len s.text ++
          pollBytes s.cfg.rf as.length) as) with
      seq := { s.seq with
        busy := true, op := 0x41, phase := 15 + 2 * s.host.len.toNat, acc := 0, polls := (as.length - m) / 2
        midRead := decide ((as.length - m) % 2 = 1) }
      rf := { s.rf with mode := .transmit } } := by
  obtain ⟨sent, polls, rfl, hlength⟩ : ∃ sent polls, as = sent ++ polls ∧ sent.length = m :=
    ⟨as.take m, as.drop m, (List.take_append_drop _ _).symm, List.length_take_of_le hsent⟩
  have hbytes : sent.length = (sendBytes s.cfg.rf (s.host.arg0.setWidth 8) s.host.len s.text).length := by
    rw [length_sendBytes, text_length, hlength, hm]
  have hpolls : (sent ++ polls).length - m = polls.length := by
    rw [List.length_append, hlength, Nat.add_sub_cancel_left]
  have hbits (j : Nat) (hj : 2 * j + 1 < polls.length) : flagIn s.cfg.rf polls (2 * j + 1) = false := by
    rw [← flagIn_append_right _ sent, hlength, ← Nat.add_assoc]
    exact hclear j (by rw [List.length_append]; omega) (by rw [List.length_append]; omega)
  have hshort : polls.length < 2 * (sent ++ polls).length := by rw [List.length_append]; omega
  rw [answers_append] at hin
  rw [hpolls, spiEvents_append hbytes, exec_eq_runOf, runOf_rfSend_of_packet hidle harg hlen hinit (hlength.trans hm) hin
    (quiet_answers polls)]
  have hwaits := waitTxDone_waits (s := (s.inMode .transmit).atStep 0x41 (15 + 2 * s.host.len.toNat) (answers polls)
    (spiEvents (sendBytes s.cfg.rf (s.host.arg0.setWidth 8) s.host.len s.text) sent)) rfl rfl hbound hshort hbits
  rw [runSteps_cons _ _ _ (quiet_answers polls), hwaits]
  simp only [Stepped.state, State.polled, State.inFlight, List.append_assoc, Nat.zero_add]
  rfl

/-! ## A wait of a single-wire read -/

/-- An operation of an idle ESPB is what its run leaves. -/
theorem exec_eq_state_of_runSteps {s : State} {i : Instr} {opc : Byte} {ms : List MicroStep} {r : Stepped}
    (hidle : s.idle) (harm : exec i s = .next (s.launch opc fun _ => ms)) (hrun : runSteps ms 0 (s.start opc) = r) :
    exec i s = .next r.state := by
  rw [harm, launch_idle s opc _ hidle, hrun]

/-- With an infinite bound a wait takes all the reads of the level it waits out, and waits on. -/
theorem waitWhile_waits {stay : Bool} {id : Byte} {s : State} {as : List Answer} (hin : s.env.inputs = answers as)
    (has : ∀ a ∈ as, a.data.getLsbD 0 = stay) (hbound : s.cfg.swPollMax = none) :
    waitWhile stay id s = .wait (s.afterReads as [] (s.seq.polls + as.length)) := by
  induction as generalizing s with
  | nil =>
    have hempty : s.env.inputs = [] := hin
    rw [waitWhile, hempty, serve_nil]
    simp [State.afterReads, State.withInputs]
  | cons a later ih =>
    obtain ⟨ha, hlater⟩ := List.forall_mem_cons.mp has
    have hcount : s.seq.polls + (a :: later).length = s.seq.polls + 1 + later.length := by
      rw [List.length_cons]
      omega
    rw [waitWhile_again (rest := answers later) hin ha (hbound ▸ nofun),
      ih (s := s.afterReads [a] (answers later) (s.seq.polls + 1)) rfl hlater hbound, State.afterReads_afterReads, hcount]
    rfl

theorem State.reading_pin (s : State) (opc : Byte) (n : Nat) (acc : BitVec 40) (l : List Input) (events : List Event) :
    (s.reading opc n acc l events).pin = s.pin := rfl

/-- The first clause of O56: the response, and a low that does not end. -/
theorem read_waits {s : State} {i : Instr} {as : List Answer} (hidle : s.idle) (hin : s.env.inputs = answers as)
    (hi : i = .swReadT ∨ i = .swReadH) (harg : s.host.arg0.toNat ≤ 255) (hbound : s.cfg.swPollMax = none)
    (hsome : 1 ≤ as.length) (has : answersOf as (List.replicate as.length false)) :
    exec i s = .next { s.after (opcodeOf i) []
        (startEvents (s.host.arg0.setWidth 8) ++
          List.replicate as.length (pinEvent (s.host.arg0.setWidth 8) false)) with
      seq := { s.seq with
        busy := true, op := opcodeOf i, phase := 7, acc := 0, polls := as.length - 1, midRead := false
        pinLow := none } } := by
  obtain ⟨a, later, rfl⟩ := List.exists_cons_of_length_pos hsome
  obtain ⟨ha, hlevels⟩ := List.forall_mem_cons.mp (answersOf_replicate.mp has).2
  obtain ⟨value, harm⟩ := exec_getter s hi
  have hresponse : lineThen [false] (answers later) s.env.inputs := lineThen_singleton.mpr ⟨a, ha, hin⟩
  have hwaits := waitWhile_waits (id := 0x06) (s := s.reading (opcodeOf i) 7 0 (answers later)
    (startEvents s.pin ++ [pinEvent s.pin false])) rfl hlevels hbound
  have hevents : later.map (fun x => pinEvent s.pin (x.data.getLsbD 0)) =
      List.replicate later.length (pinEvent s.pin false) :=
    List.eq_replicate_iff.mpr ⟨List.length_map _, fun e he => by
      obtain ⟨x, hx, rfl⟩ := List.mem_map.mp he
      rw [hlevels x hx]⟩
  rw [← pin_eq_setWidth, exec_eq_state_of_runSteps hidle harm
    ((runSteps_readSteps harg (hin ▸ quiet_answers _)).trans (runSteps_response hresponse))]
  rw [swAnswered, List.append_assoc, List.append_assoc, List.cons_append, runSteps_cons _ _ _ (quiet_answers later),
    hwaits]
  simp only [Stepped.state, State.afterReads, State.reading_pin, hevents]
  simp [State.reading, State.after, List.replicate_succ]

/-! ## The statement -/

/-- Settles O56: the wait S6 of a read, and the poll of `RF.SEND`. -/
theorem infiniteBoundWaits : Obligations.InfiniteBoundWaits := by
  intro s as hidle hin
  exact ⟨fun i hi harg hbound hsome has => read_waits hidle hin hi harg hbound hsome has,
    fun m hm harg hlen hinit hbound hsent hclear =>
      rfSend_waits hidle hin harg hlen hinit hbound hm hsent hclear⟩

end Sys2Proof.Machine
end

section
/-! PROOFS. Outside actions that land between the steps of a single-wire read (20_memory.md R81, log 3): the steps
before them are as many as there are passes. -/

namespace Sys2Proof.Machine

/-! ## Steps and passes -/

/-- SEQ takes a step: a pass before it is used up, and nothing else jumps in. -/
theorem runSteps_go_of_next {m : MicroStep} {ms : List MicroStep} {s t : State} {l : List Input}
    (h : s.env.inputs = .pass :: l ∨ s.env.inputs = l ∧ quiet l = true) (hm : m (s.withInputs l) = .go 0 t) :
    runSteps (m :: ms) 0 s = runSteps ms 0 t.nextPhase := by
  rcases h with hpass | ⟨rfl, hquiet⟩
  · rw [runSteps_pass m ms s l hpass, hm]
  · exact runSteps_go hquiet hm

/-! ## The operand check and S1 to S4 -/

/-- The read `opc` in flight after the first `k` steps: the operand check and `k - 1` of S1 to S4. -/
def State.begun (s : State) (opc : Byte) (k : Nat) (l : List Input) : State :=
  { s with
    seq := { s.seq with
      busy := true, op := opc, phase := k + 1, acc := 0, polls := 0, midRead := false
      pinLow := if k ≤ 1 then s.seq.pinLow else if k ≤ 3 then some s.pin else none }
    env := { s.env with inputs := l, trace := s.env.trace ++ (startEvents s.pin).take (k - 1) } }

theorem start_eq_begun (s : State) (opc : Byte) : s.start opc = s.begun opc 0 s.env.inputs := by
  simp [State.start, State.begun]

theorem begun_eq_reading (s : State) (opc : Byte) (l : List Input) :
    s.begun opc 5 l = s.reading opc 6 0 l (startEvents s.pin) := rfl

section
variable {s : State} {opc : Byte} {value : Swd → Word} (harg : s.host.arg0.toNat ≤ 255)
include harg

/-- Each of the first five steps is done whatever comes after it. -/
theorem runSteps_begun {k : Nat} (hk : k < 5) {inputs l : List Input}
    (h : inputs = .pass :: l ∨ inputs = l ∧ quiet l = true) :
    runSteps ((readSteps value).drop k) 0 (s.begun opc k inputs) =
      runSteps ((readSteps value).drop (k + 1)) 0 (s.begun opc (k + 1) l) := by
  have hlegal : guardStep (fun s => arg0Above s.operands 255) (s.begun opc 0 l) = .go 0 (s.begun opc 0 l) :=
    guardStep_none (if_neg (Nat.not_lt.mpr harg))
  match k, hk with
  | 0, _ => exact runSteps_go_of_next (s := s.begun opc 0 inputs) h hlegal
  | 1, _ | 2, _ | 3, _ | 4, _ =>
    refine (runSteps_go_of_next h (perform_go _ _ _)).trans (congrArg (runSteps _ 0) ?_)
    simp [State.begun, State.record, State.nextPhase, State.withInputs, State.pin, startEvents,
      Answer.nothing, Config.swResetMs, Config.swReleaseUs]

/-- As many steps as passes. -/
theorem runSteps_passes {j : Nat} (hj : j ≤ 5) (l : List Input) :
    runSteps (readSteps value) 0 (s.begun opc 0 (List.replicate j .pass ++ l)) =
      runSteps ((readSteps value).drop j) 0 (s.begun opc j l) := by
  induction j generalizing l with
  | zero => rfl
  | succ j ih =>
    have hone : List.replicate (j + 1) Input.pass ++ l = List.replicate j .pass ++ .pass :: l := by
      rw [List.replicate_succ', List.append_assoc]
      rfl
    rw [hone, ih (Nat.le_of_succ_le hj), runSteps_begun harg hj (.inl rfl)]

/-- The steps left of the first five. -/
theorem runSteps_begun_quiet {j : Nat} (hj : j ≤ 5) {l : List Input} (hquiet : quiet l = true) :
    runSteps ((readSteps value).drop j) 0 (s.begun opc j l) =
      runSteps ((readSteps value).drop 5) 0 (s.begun opc 5 l) := by
  induction hj using Nat.decreasingInduction with
  | self => rfl
  | of_succ k hk ih => exact (runSteps_begun harg hk (.inr ⟨rfl, hquiet⟩)).trans ih

/-- The first clause of O57: the reset lands before the next of S1 to S5. -/
theorem exec_read_reset {i : Instr} (hidle : s.idle) (hi : i = .swReadT ∨ i = .swReadH) {k : Nat} {rest : List Input}
    (hk : k ≤ 4) (hin : s.env.inputs = List.replicate (k + 1) .pass ++ .early (.rst true) :: rest) :
    exec i s = .next { State.reset with
      cfg := s.cfg
      env := { s.env with
        rst := true, inputs := rest, epoch := s.env.epoch + 1
        trace := s.env.trace ++ (startEvents (s.host.arg0.setWidth 8)).take k } } := by
  obtain ⟨value, harm⟩ := exec_getter s hi
  have hmore : k + 1 < (readSteps value).length :=
    Nat.lt_of_le_of_lt (Nat.succ_le_succ hk) (by simp [readSteps, swRead])
  have hrun : runSteps (readSteps value) 0 (s.start (opcodeOf i)) =
      .ended (((s.begun (opcodeOf i) (k + 1) (.early (.rst true) :: rest)).withInputs rest).afterReset true) := by
    rw [start_eq_begun, hin, runSteps_passes harg (Nat.succ_le_succ hk), List.drop_eq_getElem_cons hmore]
    exact runSteps_reset _ _ _ rest rfl
  rw [exec_eq_of_runSteps hidle harm hrun, ← pin_eq_setWidth]
  rfl

omit harg in
theorem rxEvent_eq (s : State) : s.rxEvent = { s with rf := { s.rf with rxpend := s.rf.rxie || s.rf.rxpend } } := by
  cases hrxie : s.rf.rxie with
  | true => exact rxEvent_of_enabled hrxie
  | false => exact rxEvent_of_disabled hrxie

omit harg in
/-- The event acts alike before and after the first steps. -/
theorem rxEvent_begun (s : State) (opc : Byte) (k : Nat) (l : List Input) :
    (s.begun opc k l).rxEvent = s.rxEvent.begun opc k l := by
  rw [rxEvent_eq, rxEvent_eq]
  rfl

/-- The second clause of O57: the event lands before one of S1 to S5, and the read waits at S5. -/
theorem exec_read_rxEvent {i : Instr} (hidle : s.idle) (hi : i = .swReadT ∨ i = .swReadH) {j : Nat} {num : Word}
    (hj : j ≤ 5) (hin : s.env.inputs = List.replicate j .pass ++ [.early (.rxEvent num)]) :
    exec i s = .next { s.after (opcodeOf i) [] (startEvents (s.host.arg0.setWidth 8)) with
      seq := { s.seq with
        busy := true, op := opcodeOf i, phase := 6, acc := 0, polls := 0, midRead := false, pinLow := none }
      rf := { s.rf with rxpend := s.rf.rxie || s.rf.rxpend } } := by
  obtain ⟨value, harm⟩ := exec_getter s hi
  have hmore : j < (readSteps value).length := Nat.lt_of_le_of_lt hj (by simp [readSteps, swRead])
  have hlands : runSteps ((readSteps value).drop j) 0 (s.begun (opcodeOf i) j [.early (.rxEvent num)]) =
      runSteps ((readSteps value).drop j) 0 (s.rxEvent.begun (opcodeOf i) j []) := by
    rw [List.drop_eq_getElem_cons hmore, ← rxEvent_begun]
    refine runSteps_early _ _ _ (.rxEvent num) [] rfl rfl ?_
    rw [external_rxEvent, rxEvent_eq]
    rfl
  have hlegal : s.rxEvent.host.arg0.toNat ≤ 255 := by
    rw [rxEvent_eq]
    exact harg
  have hwaits (t : State) : runSteps ((readSteps value).drop 5) 0 (t.begun (opcodeOf i) 5 []) =
      .wait (t.begun (opcodeOf i) 5 []) := by
    have hsteps : (readSteps value).drop 5 = responseCheck :: (swAnswered ++ [finishRead value]) := rfl
    rw [hsteps, runSteps_cons _ _ _ rfl, responseCheck, ask_nothing rfl]
  have hrun : runSteps (readSteps value) 0 (s.start (opcodeOf i)) = .wait (s.rxEvent.begun (opcodeOf i) 5 []) := by
    rw [start_eq_begun, hin, runSteps_passes harg hj, hlands, runSteps_begun_quiet hlegal hj rfl, hwaits]
  rw [exec_eq_state_of_runSteps hidle harm hrun, rxEvent_eq, ← pin_eq_setWidth]
  rfl

end

/-! ## A `STATUS` read at the end of a read -/

/-- A host read of `STATUS` shows it at any time (R64). -/
def State.readsStatus (s : State) : State :=
  { s with env := { s.env with hostReads := s.env.hostReads ++ [⟨0x001, s.status⟩] } }

theorem external_hostRead_status (s : State) : s.external (.hostRead 0x001) = s.readsStatus :=
  hostRead_exact (.inr rfl)

/-- A `STATUS` read that lands before a step. -/
theorem runSteps_early_status {m : MicroStep} {ms : List MicroStep} {s : State} {l : List Input}
    (h : s.env.inputs = .early (.hostRead 0x001) :: l) :
    runSteps (m :: ms) 0 s = runSteps (m :: ms) 0 (s.withInputs l).readsStatus := by
  rw [runSteps_early m ms s _ l h rfl (by rw [external_hostRead_status]; rfl), external_hostRead_status]

theorem act_decodeFrame (s : State) : act decodeFrame s = .go 0 { s with sw := s.sw.afterFrame s.seq.acc } := by
  rw [act_go, decodeFrame_eq]

/-- What the two places of the read have in common: the state at the end and the word read. -/
theorem runSteps_status_read {value : Swd → Word} {s : State} (late : Bool) (hbusy : s.seq.busy = true)
    (hin : s.env.inputs = if late then [.pass, .early (.hostRead 0x001)] else [.early (.hostRead 0x001)]) :
    ∃ (t : State) (v : Word), runSteps [act decodeFrame, finishRead value] 0 s = .ended t.done ∧
      t.sw = s.sw.afterFrame s.seq.acc ∧ t.env.hostReads = s.env.hostReads ++ [⟨0x001, v⟩] ∧
      v.getLsbD 0 = true ∧
      v.extractLsb 10 8 = (if late then (s.sw.afterFrame s.seq.acc).stat.code else s.sw.stat.code) := by
  cases late with
  | false =>
    refine ⟨_, s.status, (runSteps_early_status hin).trans ((runSteps_go rfl (act_decodeFrame _)).trans
      (runSteps_ended rfl rfl)), rfl, rfl, (status_flags s).1.trans hbusy, status_swstat s⟩
  | true =>
    refine ⟨_, State.status { s with sw := s.sw.afterFrame s.seq.acc },
      (runSteps_go_of_next (.inl hin) (act_decodeFrame _)).trans ((runSteps_early_status (l := []) rfl).trans
      (runSteps_ended rfl rfl)), rfl, rfl, (status_flags _).1.trans hbusy, status_swstat _⟩

/-- The third clause of O57. -/
theorem exec_read_status {s : State} {i : Instr} {low high : Nat} {ws : List BitWave} {as : List Answer} {late : Bool}
    (hidle : s.idle) (hi : i = .swReadT ∨ i = .swReadH) (harg : s.host.arg0.toNat ≤ 255) (hlength : ws.length = 40)
    (hlow : withinBound s.cfg.swPollMax low) (hhigh : withinBound s.cfg.swPollMax high)
    (hbound : wavesWithin s.cfg.swPollMax ws) (has : answersOf as (handshakeLine low high ++ bitsLine ws))
    (hin : s.env.inputs =
      answers as ++ (if late then [.pass, .early (.hostRead 0x001)] else [.early (.hostRead 0x001)])) :
    ∃ (t : State) (v : Word), exec i s = .next t ∧ t.idle ∧ t.seq.cause = 0 ∧ t.sw = s.sw.afterFrame (frameOf ws) ∧
      t.env.hostReads = s.env.hostReads ++ [⟨0x001, v⟩] ∧ v.getLsbD 0 = true ∧
      v.extractLsb 10 8 = (if late then (s.sw.afterFrame (frameOf ws)).stat.code else s.sw.stat.code) := by
  obtain ⟨value, harm⟩ := exec_getter s hi
  obtain ⟨l, hbits, hhandshake⟩ := lineThen_append.mp ⟨as, has, hin⟩
  have hsome : bitsLine ws ≠ [] := by
    obtain ⟨w, ws, rfl⟩ := List.exists_cons_of_length_eq_add_one hlength
    simp [bitsLine]
  obtain ⟨t, v, hrun, hsw, hreads, hbusy, hstat⟩ := runSteps_status_read (value := value) (s := s.reading (opcodeOf i)
    170 (sampledAll 0 ws) _ (startEvents s.pin ++ (handshakeLine low high).map (pinEvent s.pin) ++ bitsEvents s.pin ws))
    late rfl rfl
  rw [show (s.reading _ _ (sampledAll 0 ws) _ _).seq.acc = frameOf ws from sampledAll_zero ws] at hsw hstat
  refine ⟨t.done, v, ?_, rfl, rfl, hsw, hreads, hbusy, hstat⟩
  exact exec_read_of_handshake hidle harm harg hhandshake (quiet_of_lineThen hbits hsome) hlow hhigh
    ((runSteps_sampleBits_all hlength hbits hbound).trans hrun)

/-- Settles O57: a reset, an `RxEvent` and a `STATUS` read. -/
theorem actionsLandBetweenSteps : Obligations.ActionsLandBetweenSteps := by
  intro s i hidle harg hi
  exact ⟨fun k rest hk hin => exec_read_reset harg hidle hi hk hin,
    fun j num hj hin => exec_read_rxEvent harg hidle hi hj hin,
    fun as low high ws late hlength hlow hhigh hbound has hin =>
      exec_read_status hidle hi harg hlength hlow hhigh hbound has hin⟩

end Sys2Proof.Machine
end

section
/-! PROOFS. An operation with fewer answers than it needs is in flight (10_state.md R21, R24; log 2): with enough
answers it takes them all, so that with fewer it cannot have ended. -/

namespace Sys2Proof.Machine

/-! ## What an operation needs -/

/-- How many answers operation `i` takes when nothing turns it away, up to the poll of `RF.SEND`. -/
def answersTaken (i : Instr) (s : State) (line : List Bool) : Nat :=
  match i with
  | .swReadT => line.length
  | .swReadH => line.length
  | .rfSend => 2 * (6 + s.host.len.toNat)
  | _ => answersNeeded i s 0 0

/-- The answers an operation is given here: acknowledged on the two-wire bus, levels of `line` on the pin. -/
structure Suits (i : Instr) (as : List Answer) (line : List Bool) : Prop where
  acks : i.isPtc = true ∨ i.isFtr = true → ∀ a ∈ as, a.ack = true
  levels : i.isSwd = true → answersOf as line

/-- The answer that shows a level, acknowledged. -/
def levelAnswer (b : Bool) : Answer := ⟨true, (BitVec.ofBool b).setWidth 24⟩

theorem answersOf_levelAnswer (line : List Bool) : answersOf (line.map levelAnswer) line := by
  have hlevel (b : Bool) : (levelAnswer b).data.getLsbD 0 = b := by cases b <;> rfl
  rw [answersOf, List.map_map]
  exact List.map_id'' hlevel line

/-- Fewer answers can be made enough. -/
theorem exists_more_answers {i : Instr} {as : List Answer} {line : List Bool} {n : Nat} (hn : as.length < n)
    (hline : i.isSwd = true → line.length = n) (h : Suits i as (line.take as.length)) :
    ∃ more, more ≠ [] ∧ (as ++ more).length = n ∧ Suits i (as ++ more) line := by
  obtain ⟨levels, hlength, hlevels⟩ : ∃ levels, as.length + levels.length = n ∧
      (i.isSwd = true → levels = line.drop as.length) := by
    cases hi : i.isSwd with
    | true => exact ⟨line.drop as.length, by rw [List.length_drop, hline hi]; omega, fun _ => rfl⟩
    | false => exact ⟨List.replicate (n - as.length) true, by rw [List.length_replicate]; omega, fun h => nomatch h⟩
  refine ⟨levels.map levelAnswer, ?_, ?_, ⟨fun hi => ?_, fun hi => ?_⟩⟩
  · rw [Ne, List.map_eq_nil_iff]
    rintro rfl
    exact absurd hlength (Nat.ne_of_lt hn)
  · rw [List.length_append, List.length_map, hlength]
  · refine List.forall_mem_append.mpr ⟨h.acks hi, fun a ha => ?_⟩
    obtain ⟨b, -, rfl⟩ := List.mem_map.mp ha
    rfl
  · rw [answersOf, List.map_append, answersOf_levelAnswer, h.levels hi, hlevels hi, List.take_append_drop]

/-! ## With enough answers -/

/-- Operation `i` takes all the inputs. -/
def TakesAll (i : Instr) (s : State) : Prop := ∃ t, exec i s = .next t ∧ t.env.inputs = []

/-- Acknowledged answers are given by their data. -/
theorem answers_eq_acked {as : List Answer} (h : ∀ a ∈ as, a.ack = true) : answers as = acked (as.map Answer.data) := by
  rw [acked, List.map_map]
  refine List.map_congr_left fun a ha => ?_
  rw [Function.comp_apply, ← h a ha]

section
variable {s : State} {d : List (BitVec 24)} (hidle : s.idle)
include hidle

theorem ptInit_takes_all (harg : s.host.arg0.toNat ≤ 0x7F) (hd : d.length = 11) (hin : s.env.inputs = acked d) :
    TakesAll .ptInit s :=
  ⟨_, exec_ptInit_completes s hidle harg d [] hd (hin.trans (List.append_nil _).symm) rfl, rfl⟩

theorem ptReadT_takes_all (hinit : s.pt.init = true) (hd : d.length = 2) (hin : s.env.inputs = acked d) :
    TakesAll .ptReadT s := by
  obtain ⟨y, x, rfl⟩ := List.length_eq_two.mp hd
  exact ⟨_, exec_ptReadT_completes s hidle hinit x y [] hin rfl, rfl⟩

theorem ptReadP_takes_all (hinit : s.pt.init = true) (hd : d.length = 4) (hin : s.env.inputs = acked d) :
    TakesAll .ptReadP s := by
  match d, hd with
  | [y, x, z, r], _ => exact ⟨_, exec_ptReadP_completes s hidle hinit x y z r [] hin rfl, rfl⟩

theorem read_takes_all {i : Instr} {low high : Nat} {ws : List BitWave} {as : List Answer}
    (hi : i = .swReadT ∨ i = .swReadH) (harg : s.host.arg0.toNat ≤ 255) (hlength : ws.length = 40)
    (hlow : withinBound s.cfg.swPollMax low) (hhigh : withinBound s.cfg.swPollMax high)
    (hbound : wavesWithin s.cfg.swPollMax ws) (has : answersOf as (handshakeLine low high ++ bitsLine ws))
    (hin : s.env.inputs = answers as) : TakesAll i s := by
  obtain ⟨value, harm⟩ := exec_getter s hi
  exact ⟨_, exec_read_completes hidle harm harg hlength ⟨as, has, hin.trans (List.append_nil _).symm⟩ rfl hlow hhigh
    hbound, rfl⟩

theorem dspInit_takes_all (hok : s.operands.displayOk = true) (hd : d.length = s.cfg.dsp.initList.length + 7)
    (hin : s.env.inputs = acked d) : TakesAll .dspInit s := by
  obtain ⟨list, flush, rfl, hlist, hflush⟩ : ∃ list flush, d = list ++ flush ∧
      list.length = s.cfg.dsp.initList.length ∧ flush.length = 7 :=
    ⟨d.take s.cfg.dsp.initList.length, d.drop s.cfg.dsp.initList.length, (List.take_append_drop _ _).symm,
      List.length_take_of_le (by omega), by rw [List.length_drop]; omega⟩
  exact ⟨_, exec_dspInit_completes hidle hok hlist hflush (hin.trans (List.append_nil _).symm) rfl, rfl⟩

/-- An operation of an initialised FTR whose steps after the guard leave no input. -/
theorem drawing_takes_all {i : Instr} {opc : Byte} {ms : List MicroStep} {t : State} (hinit : s.dsp.init = true)
    (harm : exec i s = .next (s.launch opc fun _ => needsInit (fun s => s.dsp.init) 3 :: ms))
    (hin : s.env.inputs = acked d) (ht : t.env.inputs = [])
    (hrun : runSteps ms 0 (s.atStep opc 2 (acked d ++ []) []) = .ended t) : TakesAll i s := by
  rw [List.append_nil, ← hin] at hrun
  have hquiet : quiet s.env.inputs = true := hin ▸ List.append_nil (acked d) ▸ quiet_acked_append d rfl
  exact ⟨t, exec_eq_of_drawing hidle hinit hquiet harm hrun, ht⟩

theorem dspClear_takes_all (hinit : s.dsp.init = true) (hd : d.length = 7) (hin : s.env.inputs = acked d) :
    TakesAll .dspClear s :=
  drawing_takes_all (t := State.done _) hidle hinit (exec_dspClear s) hin rfl
    ((runSteps_clearAndFlush hd rfl).trans (runSteps_finish_atStep (s' := clearFrame s) rfl rfl))

omit hidle in
/-- A text that fits. -/
theorem textFits_of_fits {n : Nat} (hlen : s.host.len.toNat = n) (h : s.fits s.textStart n = true) :
    s.textFits = none := by
  subst hlen
  simp only [State.fits, Bool.or_eq_true, decide_eq_true_eq] at h
  exact if_neg fun ⟨hone, hlong⟩ => by omega

theorem dspShowStr_takes_all (hinit : s.dsp.init = true) (hfits : s.fits s.textStart s.host.len.toNat = true)
    (hdrawable : drawable s.cfg.dsp.font s.text = true) (hd : d.length = 7) (hin : s.env.inputs = acked d) :
    TakesAll .dspShowStr s :=
  drawing_takes_all (t := State.done _) hidle hinit (exec_dspShowStr s) hin rfl
    (runSteps_text_completes (textFits_of_fits rfl hfits) (textGlyphs_drawable hdrawable) hd rfl)

theorem dspShowNum_takes_all (hinit : s.dsp.init = true)
    (hfits : s.fits s.textStart (decimalText s.host.arg2.toInt).length = true)
    (hdrawable : drawable s.cfg.dsp.font (decimalText s.host.arg2.toInt) = true) (hd : d.length = 7)
    (hin : s.env.inputs = acked d) : TakesAll .dspShowNum s :=
  drawing_takes_all (t := State.done _) hidle hinit (exec_dspShowNum s) hin rfl <|
    (runSteps_act_atStep (s' := formatNumber s) (quiet_acked_append d rfl) rfl).trans <|
    runSteps_text_completes (textFits_of_fits (len_formatNumber s) hfits)
      (textGlyphs_drawable ((text_formatNumber s).symm ▸ hdrawable)) hd rfl

theorem rfInit_takes_all {as : List Answer}
    (has : as.length = 2 * (7 + s.cfg.rf.modemWrites.length + s.cfg.rf.preambleWrites.length))
    (hin : s.env.inputs = answers as) : TakesAll .rfInit s :=
  ⟨_, radioInit s as _ [] hidle has (hin.trans (List.append_nil _).symm) rfl rfl, rfl⟩

omit hidle in
/-- With no input left SEQ waits at the poll, or at the Standby write when the bound is 0. -/
theorem poll_takes_all (hin : s.env.inputs = []) (hmid : s.seq.midRead = false) :
    (runSteps (waitTxDone :: (afterTxDone ++ afterTxTimeout)) 0 s).state.env.inputs = [] := by
  have hquiet : quiet s.env.inputs = true := by rw [hin]; rfl
  by_cases hbound : s.cfg.rf.pollMax = some s.seq.polls
  · have hasks (t : State) (ht : t.env.inputs = []) : (runSteps afterTxTimeout 0 t).state.env.inputs = [] := by
      have hsteps : afterTxTimeout = spiStep (fun s => writeAddress s.cfg.rf.regOpMode) id :: afterTxTimeout.tail := rfl
      rw [hsteps, runSteps_cons _ _ _ (by rw [ht]; rfl), spiStep, ask_nothing ht]
      exact ht
    rw [runSteps_go hquiet (waitTxDone_atBound hmid hbound), runSteps_passOver _ _ _ (by simp), List.drop_left]
    exact hasks _ hin
  · rw [runSteps_cons _ _ _ hquiet, waitTxDone_asks hbound, hin, serve_nil]
    rfl

theorem rfSend_takes_all {as : List Answer} (harg : s.host.arg0.toNat ≤ 255) (hlen : s.host.len.toNat ≤ 254)
    (hinit : s.rf.init = true) (has : as.length = 2 * (6 + s.host.len.toNat)) (hin : s.env.inputs = answers as) :
    TakesAll .rfSend s := by
  refine ⟨_, exec_eq_runOf .rfSend s, ?_⟩
  rw [runOf_rfSend_of_packet hidle harg hlen hinit has (hin.trans (List.append_nil _).symm) rfl]
  exact poll_takes_all rfl rfl

/-- R302: an operation that nothing turns away takes the answers it needs. -/
theorem takes_all {i : Instr} {as : List Answer} {low high : Nat} {ws : List BitWave} {line : List Bool}
    (hchecks : s.passesChecks i = true) (hline : line = handshakeLine low high ++ bitsLine ws)
    (hwaves : i.isSwd = true → ws.length = 40 ∧ withinBound s.cfg.swPollMax low ∧ withinBound s.cfg.swPollMax high ∧
      wavesWithin s.cfg.swPollMax ws)
    (hsuits : Suits i as line) (hneeds : 0 < answersTaken i s line) (has : as.length = answersTaken i s line)
    (hin : s.env.inputs = answers as) : TakesAll i s := by
  obtain ⟨hlegal, hguard⟩ := Bool.and_eq_true_iff.mp hchecks
  subst hline
  have hacked (hi : i.isPtc = true ∨ i.isFtr = true) : s.env.inputs = acked (as.map Answer.data) :=
    hin.trans (answers_eq_acked (hsuits.acks hi))
  have hread (hi : i = .swReadT ∨ i = .swReadH) (hswd : i.isSwd = true) (harg : s.host.arg0.toNat ≤ 255) :
      TakesAll i s := by
    obtain ⟨hlength, hlow, hhigh, hbound⟩ := hwaves hswd
    exact read_takes_all hidle hi harg hlength hlow hhigh hbound (hsuits.levels hswd) hin
  have hdata : (as.map Answer.data).length = as.length := List.length_map _
  rw [has] at hdata
  cases i with
  | ptInit => exact ptInit_takes_all hidle (of_decide_eq_true hlegal) hdata (hacked (.inl rfl))
  | ptReadT => exact ptReadT_takes_all hidle hguard hdata (hacked (.inl rfl))
  | ptReadP => exact ptReadP_takes_all hidle hguard hdata (hacked (.inl rfl))
  | swReadT => exact hread (.inl rfl) rfl (of_decide_eq_true hlegal)
  | swReadH => exact hread (.inr rfl) rfl (of_decide_eq_true hlegal)
  | swSetCal | rfOnRecv => exact absurd hneeds (Nat.lt_irrefl 0)
  | dspInit => exact dspInit_takes_all hidle hlegal hdata (hacked (.inr rfl))
  | dspClear => exact dspClear_takes_all hidle hguard hdata (hacked (.inr rfl))
  | dspShowStr =>
    obtain ⟨hshown, hdrawable⟩ := Bool.and_eq_true_iff.mp hguard
    obtain ⟨hinit, hfits⟩ := Bool.and_eq_true_iff.mp hshown
    exact dspShowStr_takes_all hidle hinit hfits hdrawable hdata (hacked (.inr rfl))
  | dspShowNum =>
    obtain ⟨hshown, hdrawable⟩ := Bool.and_eq_true_iff.mp hguard
    obtain ⟨hinit, hfits⟩ := Bool.and_eq_true_iff.mp hshown
    exact dspShowNum_takes_all hidle hinit hfits hdrawable hdata (hacked (.inr rfl))
  | rfInit => exact rfInit_takes_all hidle has hin
  | rfSend =>
    obtain ⟨harg, hlen⟩ := Bool.and_eq_true_iff.mp hlegal
    exact rfSend_takes_all hidle (of_decide_eq_true harg) (of_decide_eq_true hlen) hguard has hin

end

/-! ## With fewer -/

/-- An operation that takes all of longer inputs waits with shorter ones. -/
theorem runOf_waits_of_takesAll {i : Instr} {s : State} {ys : List Input} (hidle : s.idle) (hquiet : quiet ys = true)
    (hne : ys ≠ []) (h : TakesAll i (s.extend ys)) : ∃ t, s.runOf i = .wait t := by
  obtain ⟨t, hexec, hin⟩ := h
  have hphase : s.seq.busy = true → 1 ≤ s.seq.phase := fun hbusy => Bool.noConfusion (hidle.symm.trans hbusy)
  rw [exec_eq_runOf, runOf_extend i hphase hquiet, Host.Outcome.next.injEq] at hexec
  subst hexec
  cases hr : s.runOf i with
  | wait u => exact ⟨u, rfl⟩
  | go k u | ended u =>
    rw [hr] at hin
    exact absurd (List.append_eq_nil_iff.mp hin).2 hne

theorem answersIn_answers (as : List Answer) : answersIn (answers as) = answers as :=
  List.filter_eq_self.mpr fun x hx => by
    obtain ⟨a, -, rfl⟩ := List.mem_map.mp hx
    rfl

/-- What an operation in flight that has taken all its answers shows. -/
theorem inFlight_of_wait {i : Instr} {s t : State} {as : List Answer} (hidle : s.idle) (hin : s.env.inputs = answers as)
    (h : s.runOf i = .wait t) : ∃ events, exec i s = .next t ∧
      t.seq.busy = true ∧ t.seq.op = opcodeOf i ∧ t.seq.cause = s.seq.cause ∧ sameResults s t ∧
      t.env.inputs = [] ∧ t.env.trace = s.env.trace ++ events ∧ (askedBy events).length = as.length := by
  have hwaits := runOf_waits i (s := s) fun hbusy => Bool.noConfusion (hidle.symm.trans hbusy)
  rw [h, underway_of_idle _ hidle] at hwaits
  obtain ⟨hempty, ⟨hbusy, hadvance⟩, -, -⟩ := hwaits
  obtain ⟨taken, events, htaken, htrace, -, hcount⟩ := hadvance.ledger
  rw [hempty, List.append_nil] at htaken
  have hall : answersIn taken = answers as := by
    rw [← htaken]
    exact hin ▸ answersIn_answers as
  refine ⟨events, ?_, hbusy, hadvance.op, hadvance.cause, hadvance.results, hempty, htrace, ?_⟩
  · rw [exec_eq_runOf, h]
    rfl
  · rw [hcount, hall]
    exact List.length_map _

/-- Settles O55: with the answers that are missing it takes them all; were it over without them, they would be left. -/
theorem waitsForAnswer : Obligations.WaitsForAnswer := by
  intro i s as low high ws line hidle hchecks hin hline hacks hwaves hshort
  have hfew : as.length < answersTaken i s line := by cases i <;> exact hshort
  have hsuits : Suits i as (line.take as.length) := ⟨hacks, fun hi => by
    obtain ⟨-, -, -, -, hlevels⟩ := hwaves hi
    exact hlevels⟩
  have hlength : i.isSwd = true → line.length = answersTaken i s line := fun hi => by
    cases i with
    | swReadT | swReadH => rfl
    | swSetCal => exact absurd hfew (Nat.not_lt_zero _)
    | _ => cases hi
  obtain ⟨more, hmore, hcount, hall⟩ := exists_more_answers hfew hlength hsuits
  have hlonger : (s.extend (answers more)).env.inputs = answers (as ++ more) := by
    rw [answers_append, ← hin]
    rfl
  have hchecks' : (s.extend (answers more)).passesChecks i = true := hchecks
  have htakes : TakesAll i (s.extend (answers more)) :=
    takes_all (s := s.extend (answers more)) hidle hchecks' hline
      (fun hi => by
        obtain ⟨hlength, hlow, hhigh, hbound, -⟩ := hwaves hi
        exact ⟨hlength, hlow, hhigh, hbound⟩) hall
      (Nat.zero_lt_of_lt hfew) hcount hlonger
  obtain ⟨t, hwait⟩ := runOf_waits_of_takesAll hidle (quiet_answers more) (mt List.map_eq_nil_iff.mp hmore) htakes
  exact ⟨t, inFlight_of_wait hidle hin hwait⟩

end Sys2Proof.Machine
end
